-- ==== Sys2Proof/Word.lean ====
section
/-! DEFINITION. Bytes, 32-bit values and byte sequences (00_scope.md rules R11 and R12). -/

namespace Sys2Proof

/-- A byte: 8 bits, bit 0 the least significant (R11). -/
abbrev Byte := BitVec 8

/-- `u32`: a 32-bit unsigned value (R11). -/
abbrev U32 := BitVec 32

/-- `Bytes`: a finite sequence of bytes, indexed from 0 (R12). -/
abbrev Bytes := List Byte

end Sys2Proof
end

