-- ==== Sys2Proof/Config.lean ====
section
/-! DEFINITION. What an implementation fixes: the constants the source gives (00_scope.md rule R8), the
parameters the spec decides (R10), and the three OPEN parameters (R9), which have no value here. -/

namespace Sys2Proof.Config

/-- `VENDOR_HEADER`: envelope bytes 0 to 3 (R8, R82). -/
def vendorHeader : Bytes := [0x00, 0x20, 0x29, 0x00]

/-- `CMD_HEADER` (R8, R83). -/
def cmdHeader : Byte := 0x77

/-- `CMD_DATA` (R8, R83). -/
def cmdData : Byte := 0x79

/-- `CMD_TRAILER` (R8, R83). -/
def cmdTrailer : Byte := 0x7A

/-- `CMD_POS`: the index of the command byte in an envelope (R10, decision D10). -/
def cmdPos : Nat := 4

/-- `CHUNK`: the largest slice of the flat buffer one DATA envelope carries, before packing (R8). -/
def chunk : Nat := 256

/-- `GROUP`: data bytes per full pack group (R8). -/
def group : Nat := 7

/-- `UNIT`: the length of a full packed group (R8). -/
def unit : Nat := 8

/-- `NIB_FIELD`: the length of a nibble-encoded 32-bit field (R8). -/
def nibField : Nat := 8

/-- `REC_HDR`: the length of a per-record header (R8). -/
def recHdr : Nat := 10

/-- `MAX_SLOTS`: informative, enforced by no operation (R8, R22). -/
def maxSlots : Nat := 64

/-- `BUF_MAX`: the largest length of a flat buffer given to `BUILD` and of `ACC` (R10, decision D11). -/
def bufMax : Nat := 4294967295

/-- OPEN (R9): no value is given, so none can be evaluated here.  `CAPACITY` is this number plus one, which
is how `1 <= CAPACITY <= BUF_MAX` holds and nothing more. -/
opaque capacityLessOne : Fin 4294967295

/-- `CAPACITY`, a natural number of bytes (R9, decision D7; assumption log 1). -/
def capacity : Nat := capacityLessOne.val + 1

/-- `DEFAULT_OFFSET`, OPEN (R9, decision D8; assumption log 1). -/
opaque defaultOffset : U32

/-- `CRC`, OPEN: a total function from byte sequences to `u32` of which nothing else is known (R9, R26,
decision D9; assumption log 1). -/
opaque crc : Bytes → U32

end Sys2Proof.Config
end

