-- ==== Sys2Proof/Syntax.lean ====
section
/-! DEFINITION. The instructions: one constructor per row of spec/opcode_table.json (00_scope.md rule R4,
30_encoding.md rules R100 and R115), and the words they are read from. -/

namespace Sys2Proof

/-- The three envelope commands and the nine operations.  An operation has no operand in its word: it takes
them from the `ARG_*` registers and the `in` stream (10_state.md rules R33, R40).  An envelope command carries
the payload of its envelope. -/
inductive Instr where
  /-- `ENV.HEADER`, command 0x77 (R160). -/
  | envHeader (payload : Bytes)
  /-- `ENV.DATA`, command 0x79 (R161). -/
  | envData (payload : Bytes)
  /-- `ENV.TRAILER`, command 0x7A (R162). -/
  | envTrailer (payload : Bytes)
  /-- `NIB.ENC`, op 0x1 (R120). -/
  | nibEnc
  /-- `NIB.DEC`, op 0x2 (R121). -/
  | nibDec
  /-- `PACK`, op 0x3 (R130). -/
  | pack
  /-- `UNPACK`, op 0x4 (R131). -/
  | unpack
  /-- `BUILD`, op 0x5 (R150). -/
  | build
  /-- `PARSE`, op 0x6 (R155). -/
  | parse
  /-- `BANK.SER`, op 0x7 (R190). -/
  | bankSer
  /-- `BANK.PAR`, op 0x8 (R195). -/
  | bankPar
  /-- `SWAP`, op 0x9 (R220). -/
  | swap
  deriving DecidableEq, Repr

/-- Where an instruction is read from: the four bits of port `op` (R100), or one received envelope (R80). -/
inductive CodeWord where
  | op (code : BitVec 4)
  | envelope (e : Bytes)
  deriving DecidableEq, Repr

/-- `classify`'s tagged view of a received envelope (42_message_assembler.md rule R157). -/
inductive EnvClass where
  | skip
  | unknown (c : Byte)
  | header (payload : Bytes)
  | data (payload : Bytes)
  | trailer (payload : Bytes)
  deriving DecidableEq, Repr

/-- Why a word is no instruction, by name. -/
inductive Reject where
  /-- `op` is 0x0 or 0xA to 0xF (R101). -/
  | reservedOp (code : BitVec 4)
  /-- The envelope does not carry the vendor header and a command byte (R108, R157 `Skip`). -/
  | skipped
  /-- The command byte is not assigned (R83, R157 `Unknown`). -/
  | unknownCommand (c : Byte)
  deriving DecidableEq, Repr

/-- Is the instruction an envelope command (format ENV of R115) rather than an operation (format OP)? -/
def Instr.isEnv : Instr → Bool
  | .envHeader _ => true
  | .envData _ => true
  | .envTrailer _ => true
  | .nibEnc => false
  | .nibDec => false
  | .pack => false
  | .unpack => false
  | .build => false
  | .parse => false
  | .bankSer => false
  | .bankPar => false
  | .swap => false

end Sys2Proof
end

