-- ==== Sys2Proof/WellFormed.lean ====
section
/-! DEFINITION. Which instructions have the operand widths their formats give (30_encoding.md rules R84, R85,
R86, R105).  An envelope command of another payload length is still decoded and executed: it raises
MalformedEnvelope (42_message_assembler.md rules R160, R162). -/

namespace Sys2Proof

/-- A HEADER payload is two nibble fields, a TRAILER payload is one, a DATA payload has any length, and an
operation has no operand in its word. -/
def Instr.wellFormed : Instr → Bool
  | .envHeader payload => payload.length == 2 * Config.nibField
  | .envData _ => true
  | .envTrailer payload => payload.length == Config.nibField
  | .nibEnc => true
  | .nibDec => true
  | .pack => true
  | .unpack => true
  | .build => true
  | .parse => true
  | .bankSer => true
  | .bankPar => true
  | .swap => true

end Sys2Proof
end

