-- ==== Sys2Proof/Decode.lean ====
section
/-! DEFINITION. The decoder, total on every word and rejecting by name, and the encoder written from the same
tables (30_encoding.md rules R80 to R86, R100, R101, R108, R115; 42_message_assembler.md rule R157). -/

namespace Sys2Proof

/-- `classify(e)` (R157): the header filter, then the dispatch on the command byte. -/
def classify (e : Bytes) : EnvClass :=
  if e.length < 4 ∨ e.take 4 ≠ Config.vendorHeader then .skip
  else
    match e.drop Config.cmdPos with
    | [] => .skip
    | c :: payload =>
      if c = Config.cmdHeader then .header payload
      else if c = Config.cmdData then .data payload
      else if c = Config.cmdTrailer then .trailer payload
      else .unknown c

/-- The operation an operation-select code names (R100), or its rejection (R101). -/
def decodeOp (code : BitVec 4) : Except Reject Instr :=
  match code with
  | 0x1#4 => .ok .nibEnc
  | 0x2#4 => .ok .nibDec
  | 0x3#4 => .ok .pack
  | 0x4#4 => .ok .unpack
  | 0x5#4 => .ok .build
  | 0x6#4 => .ok .parse
  | 0x7#4 => .ok .bankSer
  | 0x8#4 => .ok .bankPar
  | 0x9#4 => .ok .swap
  | _ => .error (.reservedOp code)

/-- The envelope command a received envelope is (R115), or why it is none (R108). -/
def decodeEnvelope (e : Bytes) : Except Reject Instr :=
  match classify e with
  | .header payload => .ok (.envHeader payload)
  | .data payload => .ok (.envData payload)
  | .trailer payload => .ok (.envTrailer payload)
  | .skip => .error .skipped
  | .unknown c => .error (.unknownCommand c)

/-- The instruction a word is. -/
def decode : CodeWord → Except Reject Instr
  | .op code => decodeOp code
  | .envelope e => decodeEnvelope e

/-- An envelope: vendor header, command byte, payload (R80). -/
def envelope (command : Byte) (payload : Bytes) : Bytes :=
  Config.vendorHeader ++ command :: payload

/-- The word of an instruction. -/
def encode : Instr → CodeWord
  | .envHeader payload => .envelope (envelope Config.cmdHeader payload)
  | .envData payload => .envelope (envelope Config.cmdData payload)
  | .envTrailer payload => .envelope (envelope Config.cmdTrailer payload)
  | .nibEnc => .op 0x1
  | .nibDec => .op 0x2
  | .pack => .op 0x3
  | .unpack => .op 0x4
  | .build => .op 0x5
  | .parse => .op 0x6
  | .bankSer => .op 0x7
  | .bankPar => .op 0x8
  | .swap => .op 0x9

/-- The first five bytes of an envelope as the one 40-bit number of an ENV row, byte 0 most significant
(R115). -/
def envelopeKey (e : Bytes) : Nat :=
  (e.take 5).foldl (fun n b => n * 256 + b.toNat) 0

/-- The five bytes an ENV row's 40-bit number stands for, byte 0 most significant (R115). -/
def keyBytes (w : Nat) : Bytes :=
  [BitVec.ofNat 8 (w / 4294967296), BitVec.ofNat 8 (w / 16777216), BitVec.ofNat 8 (w / 65536),
    BitVec.ofNat 8 (w / 256), BitVec.ofNat 8 w]

/-- The payload of zero bytes in the width the command's format gives: 16 for HEADER, 8 for TRAILER, none for
DATA, whose payload may have any length (R84, R85, R86). -/
def zeroPayload (command : Byte) : Bytes :=
  if command = Config.cmdHeader then List.replicate (2 * Config.nibField) 0
  else if command = Config.cmdTrailer then List.replicate Config.nibField 0
  else []

/-- The envelope an ENV row's 40-bit number is the head of, its operand bytes zero (assumption log 13). -/
def tableEnvelope (w : Nat) : Bytes :=
  keyBytes w ++ zeroPayload (BitVec.ofNat 8 w)

/-- The word an opcode-table row's number is: a 4-bit operation-select code, or the head of an envelope
(R115; assumption log 13). -/
def tableWord (nbits w : Nat) : CodeWord :=
  if nbits < 40 then .op (BitVec.ofNat 4 w) else .envelope (tableEnvelope w)

/-- The instruction the decoder reads from an opcode-table row's number. -/
def decodeTableWord (nbits w : Nat) : Option Instr :=
  match decode (tableWord nbits w) with
  | .ok i => some i
  | .error _ => none

end Sys2Proof
end

