-- ==== Sys2Proof/Machine/State.lean ====
section
/-! DEFINITION. The values the operations take and return (10_state.md rules R20 to R27), the registers, the
ports and the sequencer position (R30 to R42, R45), the reasons a step stops, and the state after reset. -/

namespace Sys2Proof.Machine

/-- A sample record (R20).  `length` is the field as supplied: `WfRecord` of R21 says it equals `len(data)`. -/
structure SampleRecord where
  channels : Byte
  bitDepth : Byte
  sampleRate : U32
  length : U32
  data : Bytes
  deriving DecidableEq, Repr

/-- A sample bank (R22).  `count` is the field as supplied: `WfBank` of R23 says it equals `len(records)`. -/
structure Bank where
  count : Byte
  records : List SampleRecord
  deriving DecidableEq, Repr

/-- The ten-byte record header, once read (30_encoding.md rule R96). -/
structure RecHeader where
  channels : Byte
  bitDepth : Byte
  sampleRate : U32
  length : U32
  deriving DecidableEq, Repr

/-- What stands on the `in` stream (R41, R45): nothing so far; one block, with whether its `eob` has come; a
list of whole envelopes, with whether the list's `eos` has come; or a bank as a structured value. -/
inductive InStream where
  | empty
  | block (bytes : Bytes) (eob : Bool)
  | envelopes (list : List Bytes) (eos : Bool)
  | bank (bank : Bank)
  deriving DecidableEq, Repr

/-- What stands on the `out` stream (R41): a `Bytes` result, a list of envelopes, a bank, or the `u32` result
of `NIB.DEC` (assumption log 6). -/
inductive OutStream where
  | empty
  | block (bytes : Bytes)
  | envelopes (list : List Bytes)
  | bank (bank : Bank)
  | value (v : U32)
  deriving DecidableEq, Repr

/-- The result registers (R30): what `PARSE` accumulates and every operation's start clears. -/
structure ResultRegs where
  /-- `LEN` -/
  len : Option U32
  /-- `OFF` -/
  off : Option U32
  /-- `CSUM` -/
  csum : Option U32
  /-- `HDR_V` -/
  hdrV : Bool
  /-- `TRL_V` -/
  trlV : Bool
  /-- `ACC` -/
  acc : Bytes
  deriving DecidableEq, Repr

/-- The result registers cleared (R42, 70_reset_and_hazards.md rule R272). -/
def ResultRegs.cleared : ResultRegs :=
  { len := none, off := none, csum := none, hdrV := false, trlV := false, acc := [] }

/-- `BUILD`'s phase (R35). -/
inductive BuildPhase where
  | emitHeader
  | emitData
  | emitTrailer
  | done
  deriving DecidableEq, Repr

/-- The operation in progress and its sequencer position (R34 to R37), with what it sampled at its start (R71)
and the results it has not delivered yet (R59).  It exists only while an operation runs. -/
inductive Running where
  | pack
  | unpack
  /-- `SWAP` with the sampled width. -/
  | swap (width : BitVec 3)
  /-- `BANK.SER` with the sampled padding switch. -/
  | bankSer (pad : Bool)
  /-- `BUILD` at (`phase`, `i`), with the sampled offset and the envelopes emitted so far (R35). -/
  | build (offset : U32) (phase : BuildPhase) (i : Nat) (emitted : List Bytes)
  /-- `PARSE` at envelope `j` (R36). -/
  | parse (j : Nat)
  /-- `BANK.PAR` at (`pos`, `k`), with the count once read, the header of the record being read, and the
  records read so far (R37). -/
  | bankPar (count : Option Byte) (pos k : Nat) (hdr : Option RecHeader) (records : List SampleRecord)
  deriving DecidableEq, Repr

/-- The operation errors (60_exceptions.md rule R231). -/
inductive Err where
  | truncated
  | overCapacity
  | malformedEnvelope
  | precondition
  | overflow
  | illegalOp
  deriving DecidableEq, Repr

/-- `raise <Error>(info)` (00_scope.md rule R14): the error and the information it records. -/
structure Exn where
  err : Err
  info : Nat
  deriving DecidableEq, Repr

/-- Why the machine has no step. -/
inductive Fault where
  /-- Raised by every operation, and by the step, when `start` is presented while an operation runs: not a
  transaction of the spec, which gives it no effect and the model no step (R246, U8).  Safe. -/
  | startWhileRunning
  /-- Raised by an operation whose operand on `in` is of another kind than rule R40 gives it (an envelope list
  for `PACK`, say): such an operand is not one of the operation's transactions and the spec gives it no effect
  (assumption log 8).  Safe. -/
  | operandKind
  deriving DecidableEq, Repr

/-- Why an instruction is refused. -/
inductive Refusal where
  /-- Raised by a dispatch arm whose instruction has no meaning yet (no arm does).  Safe. -/
  | notModelled (mnemonic : String)
  /-- Raised by an envelope command met while no `PARSE` runs: the spec gives the commands a meaning inside
  `PARSE` only, and the step never does this (R4, R156; assumption log 9).  Safe. -/
  | envelopeOutsideParse
  deriving DecidableEq, Repr

/-- The machine's state. -/
structure State where
  /-- Port `op[3:0]` (R41, R100). -/
  op : BitVec 4
  /-- Port `start`: an operation is requested and has not started yet (R41; assumption log 19). -/
  start : Bool
  /-- What the caller presents on `in` for the operation it requests (R40, R41; assumption log 5). -/
  present : InStream
  /-- The `in` stream of the operation that runs or ran last (R41, R42; assumption log 5). -/
  inp : InStream
  /-- The `out` stream (R41, R42). -/
  out : OutStream
  /-- Port `done`: the last operation started has ended (R41; assumption log 7). -/
  done : Bool
  /-- `LEN`, `OFF`, `CSUM`, `HDR_V`, `TRL_V`, `ACC` (R30). -/
  res : ResultRegs
  /-- `STATUS` (R30, R231). -/
  status : BitVec 4
  /-- `ERRINFO` (R30, R231). -/
  errInfo : Nat
  /-- `ARG_OFFSET`; `none` is `ARG_OFFSET_EN = 0` (R33). -/
  argOffset : Option U32
  /-- `ARG_PAD` (R33). -/
  argPad : Bool
  /-- `ARG_WIDTH` (R33). -/
  argWidth : BitVec 3
  /-- `ARG_VALUE` (R33). -/
  argValue : U32
  /-- `ARG_NIB`: exactly eight bytes, byte 0 first (R33, R123). -/
  argNib : Vector Byte 8
  /-- The operation in progress and its position; `none` when the block is idle (R34 to R37, R42). -/
  running : Option Running
  deriving DecidableEq, Repr

/-- What a step answers. -/
abbrev Result := Host.Outcome State Fault Refusal

/-- The machine right after reset (R42, R270).  `ARG_WIDTH`, `ARG_VALUE` and `ARG_NIB` are unspecified there and
zero here (assumption log 2); `op`, `start`, `done` and `present` have no reset value in the spec (assumption
log 7). -/
def State.reset : State :=
  { op := 0
    start := false
    present := .empty
    inp := .empty
    out := .empty
    done := false
    res := ResultRegs.cleared
    status := 0
    errInfo := 0
    argOffset := none
    argPad := true
    argWidth := 0
    argValue := 0
    argNib := Vector.replicate 8 0
    running := none }

end Sys2Proof.Machine
end

