-- ==== Sys2Proof/Machine/Flags.lean ====
section
/-! DEFINITION. `STATUS` codes, the valid bits, and the check a caller can evaluate (10_state.md rules R30, R31,
R38; 60_exceptions.md rule R231; 42_message_assembler.md rule R165). -/

namespace Sys2Proof.Machine

/-- `STATUS` of an operation that completed (R231). -/
def statusOk : BitVec 4 := 0

/-- The `STATUS` code of an error (R231). -/
def Err.code : Err → BitVec 4
  | .truncated => 1
  | .overCapacity => 2
  | .malformedEnvelope => 3
  | .precondition => 4
  | .overflow => 5
  | .illegalOp => 6

/-- `LEN` and `OFF` get a value and `HDR_V` is set (R160). -/
def ResultRegs.setHeader (length offset : U32) (r : ResultRegs) : ResultRegs :=
  { r with len := some length, off := some offset, hdrV := true }

/-- `CSUM` gets a value and `TRL_V` is set (R162). -/
def ResultRegs.setTrailer (checksum : U32) (r : ResultRegs) : ResultRegs :=
  { r with csum := some checksum, trlV := true }

/-- `ACC <- ACC ++ d` (R161). -/
def ResultRegs.append (d : Bytes) (r : ResultRegs) : ResultRegs :=
  { r with acc := r.acc ++ d }

/-- `Verified` of R165: what a caller may check after `PARSE`.  No operation computes it. -/
def ResultRegs.verified (crc : Bytes → U32) (r : ResultRegs) : Bool :=
  r.hdrV && r.trlV && (r.len.map BitVec.toNat == some r.acc.length) && (r.csum == some (crc r.acc))

end Sys2Proof.Machine
end

