-- ==== Sys2Proof/Machine/Operands.lean ====
section
/-! DEFINITION. How operands are read and assembled: subsequences and little-endian fields (00_scope.md rules
R12, R14), the cut of a sequence into consecutive slices (20_memory.md rule R51), `MemRead`, and the operands on
the `in` stream (10_state.md rules R40, R41, R45). -/

namespace Sys2Proof.Machine

/-- `s[a..b)` (R12). -/
def sub (s : Bytes) (a b : Nat) : Bytes :=
  (s.drop a).take (b - a)

/-- `s[i]` (R12).  The rules index a sequence only within its length. -/
def byteAt (s : Bytes) (i : Nat) : Byte :=
  s.getD i 0

/-- `zeros(n)` (R12). -/
def zeros (n : Nat) : Bytes :=
  List.replicate n 0

/-- The consecutive slices `s[k*j .. min(k*(j+1), len(s)))` for `j` in `0 .. ceil(len(s)/k) - 1`: pack groups
(R130), packed units (R131) and chunks (R51). -/
def slices (k : Nat) (s : Bytes) : List Bytes :=
  (List.range ((s.length + k - 1) / k)).map fun j => (s.drop (k * j)).take k

/-- `le32(v)` (R14). -/
def le32 (v : U32) : Bytes :=
  [v.extractLsb' 0 8, v.extractLsb' 8 8, v.extractLsb' 16 8, v.extractLsb' 24 8]

/-- `unle32(b)`, for `b` of length 4 (R14). -/
def unle32 (b : Bytes) : U32 :=
  BitVec.ofNat 32 ((byteAt b 0).toNat + 256 * (byteAt b 1).toNat + 65536 * (byteAt b 2).toNat
    + 16777216 * (byteAt b 3).toNat)

/-- `MemRead(addr, n)` on a flat buffer (R14).  The sum is a natural number and never wraps (R197). -/
def memRead (buffer : Bytes) (addr n : Nat) : Except Exn Bytes :=
  if addr + n > buffer.length then .error { err := .truncated, info := addr }
  else .ok (sub buffer addr (addr + n))

/-- An operand as the operation finds it on `in`: whole; not whole yet; or of another kind. -/
inductive Presented (α : Type) where
  | whole (a : α)
  | pending
  | otherKind
  deriving DecidableEq, Repr

/-- One item asked of an operand that may still be arriving: it is there; it will never be, since the operand
is closed; it is not there yet; or the operand is of another kind. -/
inductive Arrival where
  | got (b : Bytes)
  | ended
  | waiting
  | otherKind
  deriving DecidableEq, Repr

/-- A `Bytes` operand: one block, whole when its `eob` has come (R41). -/
def InStream.asBlock : InStream → Presented Bytes
  | .empty => .pending
  | .block bytes true => .whole bytes
  | .block _ false => .pending
  | .envelopes _ _ => .otherKind
  | .bank _ => .otherKind

/-- A list of envelopes, whole when its `eos` has come (R41). -/
def InStream.asEnvelopes : InStream → Presented (List Bytes)
  | .empty => .pending
  | .envelopes list true => .whole list
  | .envelopes _ false => .pending
  | .block _ _ => .otherKind
  | .bank _ => .otherKind

/-- A bank, a structured value (R45). -/
def InStream.asBank : InStream → Presented Bank
  | .empty => .pending
  | .bank b => .whole b
  | .block _ _ => .otherKind
  | .envelopes _ _ => .otherKind

/-- Envelope `j` of the list that is arriving (R36). -/
def InStream.envelopeAt (j : Nat) : InStream → Arrival
  | .empty => .waiting
  | .envelopes list eos =>
    match list[j]? with
    | some e => .got e
    | none => if eos then .ended else .waiting
  | .block _ _ => .otherKind
  | .bank _ => .otherKind

/-- `MemRead(addr, n)` on a block that is arriving (R14, R37). -/
def InStream.readAt (addr n : Nat) : InStream → Arrival
  | .empty => .waiting
  | .block bytes eob =>
    match memRead bytes addr n with
    | .ok b => .got b
    | .error _ => if eob then .ended else .waiting
  | .envelopes _ _ => .otherKind
  | .bank _ => .otherKind

end Sys2Proof.Machine
end

