-- ==== Sys2Proof/Machine/Ops.lean ====
section
/-! DEFINITION. The operations the instructions share: starting an operation, ending it with results, raising an
error (the block's exception), reading operands; and what the outside may do to the ports (10_state.md rules R32,
R33, R41, R42; 60_exceptions.md rules R240, R241, R246; 70_reset_and_hazards.md rules R270, R272). -/

namespace Sys2Proof.Machine

/-- `CFG_VENDOR_HEADER`, hardwired (R32). -/
def State.cfgVendorHeader (_ : State) : Bytes := Config.vendorHeader

/-- `CFG_CAPACITY`, hardwired (R32). -/
def State.cfgCapacity (_ : State) : Nat := Config.capacity

/-- `CFG_DEFAULT_OFFSET`, hardwired (R32). -/
def State.cfgDefaultOffset (_ : State) : U32 := Config.defaultOffset

/-- The start of every operation: the result registers and `out` are cleared, and `in` holds what the caller
presents for this operation and nothing of an earlier one (R42, R272; assumption log 5).  `done` falls (assumption
log 7).  That the block clears `start` here, so that one request runs one operation, is a DESIGN CHOICE: R41 leaves open
how long `start` stays set (assumption log 19; unsafe). -/
def State.beginOp (s : State) : State :=
  { s with
    start := false, present := .empty, inp := s.present, out := .empty, done := false,
    res := ResultRegs.cleared }

/-- An operation ends with its results on `out`: `STATUS` is 0 and `ERRINFO` is 0 (R42, R231). -/
def State.finish (out : OutStream) (s : State) : State :=
  { s with running := none, done := true, status := statusOk, errInfo := 0, out := out }

/-- Taking an error, the block's exception (R240): the operation stops, `STATUS` gets the code and `ERRINFO` the
information, and no result is left.  There is no handler and no return: the caller may start any operation next
(R241). -/
def State.raise (x : Exn) (s : State) : State :=
  { s with
    running := none, done := true, status := x.err.code, errInfo := x.info, out := .empty,
    res := ResultRegs.cleared }

/-- An operation ends with what its function gives: results or an error, never both (R40, R44). -/
def State.settle (r : Except Exn OutStream) (s : State) : State :=
  match r with
  | .ok out => s.finish out
  | .error x => s.raise x

/-- A start with a reserved `op` code (R101): a start like every other, and an error like every other. -/
def State.illegalOp (s : State) : State :=
  s.beginOp.raise { err := .illegalOp, info := s.op.toNat }

/-- Start an operation on an idle block.  A start while an operation runs has no step (R246). -/
def State.startOp (body : State → Result) (s : State) : Result :=
  match s.running with
  | none => body s.beginOp
  | some _ => .fault .startWhileRunning

/-- Go on with a whole operand, or keep the operation running until its operand is whole (assumption log 4). -/
def State.withOperand {α : Type} (operand : Presented α) (waiting : Running) (go : α → State) (s : State) :
    Result :=
  match operand with
  | .whole a => .next (go a)
  | .pending => .next { s with running := some waiting }
  | .otherKind => .fault .operandKind

/-- The step of one envelope command at the position of the `PARSE` that runs (R36, R156): its effect on the
result registers, or its error. -/
def State.envCommand (effect : Nat → ResultRegs → Except Exn ResultRegs) (s : State) : Result :=
  match s.running with
  | some (.parse j) =>
    match effect j s.res with
    | .ok r => .next { s with res := r, running := some (.parse (j + 1)) }
    | .error x => .next (s.raise x)
  | _ => .refused .envelopeOutsideParse

/-- The platform asserts reset, at any moment (R270). -/
def State.assertReset (_ : State) : State := State.reset

/-- The caller requests an operation and presents its operand (R40, R41).  The request stands until the block takes it
(assumption log 19). -/
def State.request (code : BitVec 4) (operand : InStream) (s : State) : State :=
  { s with op := code, start := true, present := operand }

/-- The caller writes `ARG_OFFSET` (R33). -/
def State.writeArgOffset (v : Option U32) (s : State) : State := { s with argOffset := v }

/-- The caller writes `ARG_PAD` (R33). -/
def State.writeArgPad (v : Bool) (s : State) : State := { s with argPad := v }

/-- The caller writes `ARG_WIDTH` (R33). -/
def State.writeArgWidth (v : BitVec 3) (s : State) : State := { s with argWidth := v }

/-- The caller writes `ARG_VALUE` (R33). -/
def State.writeArgValue (v : U32) (s : State) : State := { s with argValue := v }

/-- The caller writes `ARG_NIB` (R33). -/
def State.writeArgNib (v : Vector Byte 8) (s : State) : State := { s with argNib := v }

/-- More of the operand of the running operation arrives on `in`: the stream as it stands afterwards (R41,
R71). -/
def State.deliver (stream : InStream) (s : State) : State := { s with inp := stream }

end Sys2Proof.Machine
end

