-- ==== Sys2Proof/Machine/BitPack.lean ====
section
/-! DEFINITION. BitPackCodec: `PACK` and `UNPACK` (41_bitpack_codec.md). -/

namespace Sys2Proof.Machine

/-- The flag byte of a group: bit `k` is the high bit of the group's byte `k` (R130, 30_encoding.md rule R88). -/
def packFlag (g : Bytes) : Byte :=
  g.zipIdx.foldl (fun flag bk => if bk.1.getLsbD 7 then flag ||| (1#8 <<< bk.2) else flag) 0#8

/-- A packed group: the flag byte, then the group's bytes with the high bit cleared (R88). -/
def packGroup (g : Bytes) : Bytes :=
  packFlag g :: g.map fun b => b &&& 0x7F#8

/-- `pack(data)` (R130). -/
def pack (data : Bytes) : Bytes :=
  (slices Config.group data).flatMap packGroup

/-- The data bytes of one unit of 1 to 8 bytes: byte `k` after the flag gets its high bit set when flag bit `k`
is set (R131, R136, R137). -/
def unpackUnit : Bytes → Bytes
  | [] => []
  | flag :: ds => ds.zipIdx.map fun dk => if flag.getLsbD dk.2 then dk.1 ||| 0x80#8 else dk.1

/-- `unpack(p)` (R131). -/
def unpack (p : Bytes) : Bytes :=
  (slices Config.unit p).flatMap unpackUnit

/-- `PACK` once started (R130). -/
def packBody (s : State) : Result :=
  s.withOperand s.inp.asBlock .pack fun d => s.finish (.block (pack d))

/-- `UNPACK` once started (R131). -/
def unpackBody (s : State) : Result :=
  s.withOperand s.inp.asBlock .unpack fun p => s.finish (.block (unpack p))

/-- `PACK` (R130). -/
def execPack (s : State) : Result :=
  s.startOp packBody

/-- `UNPACK` (R131). -/
def execUnpack (s : State) : Result :=
  s.startOp unpackBody

end Sys2Proof.Machine
end

