-- ==== Sys2Proof/Machine/Nibble.lean ====
section
/-! DEFINITION. NibbleCodec: `NIB.ENC` and `NIB.DEC` (40_nibble_codec.md). -/

namespace Sys2Proof.Machine

/-- `nibenc(v)`: byte `i` is `(v >> (4*(7-i))) & 0xF` (R120, 30_encoding.md rule R87). -/
def nibenc (v : U32) : Bytes :=
  (List.range 8).map fun i => ((v >>> (4 * (7 - i))) &&& 0xF#32).setWidth 8

/-- `nibdec(b)`, for `b` of length 8 and no other (R121, R123): the low four bits of each byte are folded in,
the first byte's highest. -/
def nibdec (b : Bytes) (_ : b.length = 8) : U32 :=
  b.foldl (fun v x => (v <<< 4) ||| (x &&& 0xF#8).setWidth 32) 0#32

/-- `ARG_NIB` decoded: its port is exactly eight bytes wide (R33, R123). -/
def State.argNibValue (s : State) : U32 :=
  nibdec s.argNib.toList (by simp)

/-- `NIB.ENC` (R120). -/
def execNibEnc (s : State) : Result :=
  s.startOp fun t => .next (t.finish (.block (nibenc t.argValue)))

/-- `NIB.DEC` (R121). -/
def execNibDec (s : State) : Result :=
  s.startOp fun t => .next (t.finish (.value t.argNibValue))

end Sys2Proof.Machine
end

