-- ==== Sys2Proof/Machine/Assembler.lean ====
section
/-! DEFINITION. MessageAssembler: `BUILD`, `PARSE` and the envelope commands (42_message_assembler.md). -/

namespace Sys2Proof.Machine

/-- The HEADER envelope `BUILD` emits (R150, 30_encoding.md rule R84). -/
def headerEnvelope (length offset : U32) : Bytes :=
  envelope Config.cmdHeader (nibenc length ++ nibenc offset)

/-- The DATA envelope `BUILD` emits for a chunk (R150, R85). -/
def dataEnvelope (chunk : Bytes) : Bytes :=
  envelope Config.cmdData (pack chunk)

/-- The TRAILER envelope `BUILD` emits (R150, R86). -/
def trailerEnvelope (checksum : U32) : Bytes :=
  envelope Config.cmdTrailer (nibenc checksum)

/-- The length precondition of `BUILD` (R152). -/
def buildCheck (b : Bytes) : Except Exn Unit :=
  if b.length > Config.bufMax then .error { err := .precondition, info := b.length } else .ok ()

/-- The envelopes of a flat buffer: one HEADER, one DATA for each chunk in order, one TRAILER (R150). -/
def buildEnvelopes (crc : Bytes → U32) (offset : U32) (b : Bytes) : List Bytes :=
  headerEnvelope (BitVec.ofNat 32 b.length) offset
    :: (slices Config.chunk b).map dataEnvelope
    ++ [trailerEnvelope (crc b)]

/-- `BUILD` as a function of the checksum function, the offset and the flat buffer (R150). -/
def build (crc : Bytes → U32) (offset : U32) (b : Bytes) : Except Exn (List Bytes) :=
  match buildCheck b with
  | .ok _ => .ok (buildEnvelopes crc offset b)
  | .error x => .error x

/-- The offset `BUILD` samples at its start: `ARG_OFFSET`, or `CFG_DEFAULT_OFFSET` when it is `none` (R151). -/
def State.buildOffset (s : State) : U32 :=
  s.argOffset.getD s.cfgDefaultOffset

/-- `BUILD` once started, its offset sampled (R150). -/
def buildBody (offset : U32) (s : State) : Result :=
  s.withOperand s.inp.asBlock (.build offset .emitHeader 0 []) fun b =>
    s.settle ((build Config.crc offset b).map .envelopes)

/-- `BUILD` (R150). -/
def execBuild (s : State) : Result :=
  s.startOp fun t => buildBody t.buildOffset t

/-- One advance of a `BUILD` that stands at (`phase`, `i`), its flat buffer whole (R35). -/
def buildAdvance (crc : Bytes → U32) (offset : U32) (phase : BuildPhase) (i : Nat) (emitted : List Bytes)
    (b : Bytes) (s : State) : State :=
  match phase with
  | .emitHeader =>
    match buildCheck b with
    | .error x => s.raise x
    | .ok _ =>
      { s with
        running := some (.build offset .emitData 0
          (emitted ++ [headerEnvelope (BitVec.ofNat 32 b.length) offset])) }
  | .emitData =>
    if Config.chunk * i ≥ b.length then { s with running := some (.build offset .emitTrailer i emitted) }
    else
      { s with
        running := some (.build offset .emitData (i + 1)
          (emitted ++ [dataEnvelope ((b.drop (Config.chunk * i)).take Config.chunk)])) }
  | .emitTrailer =>
    { s with running := some (.build offset .done i (emitted ++ [trailerEnvelope (crc b)])) }
  | .done => s.finish (.envelopes emitted)

/-- The sequencer's step of a running `BUILD`: nothing is emitted before the flat buffer is whole, since its
length comes first (R35, R150). -/
def buildStep (offset : U32) (phase : BuildPhase) (i : Nat) (emitted : List Bytes) (s : State) : Result :=
  s.withOperand s.inp.asBlock (.build offset phase i emitted) fun b =>
    buildAdvance Config.crc offset phase i emitted b s

/-- The effect of `ENV.HEADER` at list index `j` (R160). -/
def headerEffect (payload : Bytes) (j : Nat) (r : ResultRegs) : Except Exn ResultRegs :=
  if h : payload.length = 16 then
    .ok (r.setHeader (nibdec (payload.take 8) (by simp [h])) (nibdec (payload.drop 8) (by simp [h])))
  else .error { err := .malformedEnvelope, info := j }

/-- The effect of `ENV.DATA` at list index `j` (R161, R166): this payload is unpacked alone. -/
def dataEffect (payload : Bytes) (j : Nat) (r : ResultRegs) : Except Exn ResultRegs :=
  if r.acc.length + (unpack payload).length > Config.bufMax then .error { err := .overflow, info := j }
  else .ok (r.append (unpack payload))

/-- The effect of `ENV.TRAILER` at list index `j` (R162). -/
def trailerEffect (payload : Bytes) (j : Nat) (r : ResultRegs) : Except Exn ResultRegs :=
  if h : payload.length = 8 then .ok (r.setTrailer (nibdec payload h))
  else .error { err := .malformedEnvelope, info := j }

/-- `parse_step(e, j)` (R156). -/
def parseStep (e : Bytes) (j : Nat) (r : ResultRegs) : Except Exn ResultRegs :=
  match classify e with
  | .skip => .ok r
  | .unknown _ => .ok r
  | .header payload => headerEffect payload j r
  | .data payload => dataEffect payload j r
  | .trailer payload => trailerEffect payload j r

/-- The fold of `parse_step` over the envelopes from index `j` on; the first error ends it (R155, R236). -/
def parseFrom : List Bytes → Nat → ResultRegs → Except Exn ResultRegs
  | [], _, r => .ok r
  | e :: es, j, r =>
    match parseStep e j r with
    | .ok r' => parseFrom es (j + 1) r'
    | .error x => .error x

/-- `PARSE` as a function of its envelopes: the fold from the cleared registers (R155, R156, R272). -/
def parse (es : List Bytes) : Except Exn ResultRegs :=
  parseFrom es 0 ResultRegs.cleared

/-- `PARSE` ends: its results are the result registers (R155; assumption log 6). -/
def State.settleParse (r : Except Exn ResultRegs) (s : State) : State :=
  match r with
  | .ok r => { s with res := r }.finish .empty
  | .error x => s.raise x

/-- `PARSE` once started (R155). -/
def parseBody (s : State) : Result :=
  s.withOperand s.inp.asEnvelopes (.parse 0) fun es => s.settleParse (parse es)

/-- `PARSE` (R155). -/
def execParse (s : State) : Result :=
  s.startOp parseBody

/-- An envelope that is no instruction is skipped: the position advances and nothing else changes (R36, R108). -/
def State.skipEnvelope (j : Nat) (s : State) : State :=
  { s with running := some (.parse (j + 1)) }

/-- `ENV.HEADER` (R160). -/
def execEnvHeader (payload : Bytes) (s : State) : Result :=
  s.envCommand (headerEffect payload)

/-- `ENV.DATA` (R161). -/
def execEnvData (payload : Bytes) (s : State) : Result :=
  s.envCommand (dataEffect payload)

/-- `ENV.TRAILER` (R162). -/
def execEnvTrailer (payload : Bytes) (s : State) : Result :=
  s.envCommand (trailerEffect payload)

end Sys2Proof.Machine
end

