-- ==== Sys2Proof/Machine/Container.lean ====
section
/-! DEFINITION. SampleBankContainer: `BANK.SER` and `BANK.PAR` (43_sample_bank_container.md). -/

namespace Sys2Proof.Machine

/-- A serialized record (R190, 30_encoding.md rule R96). -/
def recordBytes (r : SampleRecord) : Bytes :=
  [r.channels, r.bitDepth] ++ le32 r.sampleRate ++ le32 r.length ++ r.data

/-- A serialized bank, `count` as supplied (R190, R192, R95). -/
def bankBytes (c : Bank) : Bytes :=
  c.count :: c.records.flatMap recordBytes

/-- The index of the first record with `length != len(data)` (R191). -/
def firstBad (rs : List SampleRecord) : Option Nat :=
  rs.findIdx? fun r => r.length.toNat != r.data.length

/-- `BANK.SER` as a function of the capacity, the bank and the padding switch (R190, R193). -/
def bankSer (capacity : Nat) (c : Bank) (pad : Bool) : Except Exn Bytes :=
  match firstBad c.records with
  | some i => .error { err := .precondition, info := i }
  | none =>
    if (bankBytes c).length > capacity then .error { err := .overCapacity, info := (bankBytes c).length }
    else if pad then .ok (bankBytes c ++ zeros (capacity - (bankBytes c).length))
    else .ok (bankBytes c)

/-- `BANK.SER` once started, its padding switch sampled (R190). -/
def bankSerBody (pad : Bool) (s : State) : Result :=
  s.withOperand s.inp.asBank (.bankSer pad) fun c =>
    s.settle ((bankSer s.cfgCapacity c pad).map .block)

/-- `BANK.SER` (R190). -/
def execBankSer (s : State) : Result :=
  s.startOp fun t => bankSerBody t.argPad t

/-- The fields of a ten-byte record header (R195, R96). -/
def recHeader (h : Bytes) : RecHeader :=
  { channels := byteAt h 0
    bitDepth := byteAt h 1
    sampleRate := unle32 (sub h 2 6)
    length := unle32 (sub h 6 10) }

/-- A record from its header and its data (R195). -/
def RecHeader.record (h : RecHeader) (data : Bytes) : SampleRecord :=
  { channels := h.channels, bitDepth := h.bitDepth, sampleRate := h.sampleRate, length := h.length, data := data }

/-- `n` records from index `pos` on; the first read past the end ends it (R195, R196). -/
def readRecords (buffer : Bytes) : Nat → Nat → Except Exn (List SampleRecord)
  | 0, _ => .ok []
  | n + 1, pos =>
    match memRead buffer pos Config.recHdr with
    | .error x => .error x
    | .ok h =>
      match memRead buffer (pos + Config.recHdr) (recHeader h).length.toNat with
      | .error x => .error x
      | .ok d =>
        match readRecords buffer n (pos + Config.recHdr + (recHeader h).length.toNat) with
        | .error x => .error x
        | .ok rs => .ok ((recHeader h).record d :: rs)

/-- `BANK.PAR` as a function of its buffer (R195). -/
def bankPar (buffer : Bytes) : Except Exn Bank :=
  match memRead buffer 0 1 with
  | .error x => .error x
  | .ok c =>
    match readRecords buffer (byteAt c 0).toNat 1 with
    | .error x => .error x
    | .ok rs => .ok { count := byteAt c 0, records := rs }

/-- `BANK.PAR` once started (R195). -/
def bankParBody (s : State) : Result :=
  s.withOperand s.inp.asBlock (.bankPar none 0 0 none []) fun b =>
    s.settle ((bankPar b).map .bank)

/-- `BANK.PAR` (R195). -/
def execBankPar (s : State) : Result :=
  s.startOp bankParBody

/-- Go on with bytes read at `addr`; wait for them; or raise Truncated where the closed buffer lacks them
(R14, R196). -/
def State.withRead (a : Arrival) (addr : Nat) (go : Bytes → Running) (s : State) : Result :=
  match a with
  | .got b => .next { s with running := some (go b) }
  | .ended => .next (s.raise { err := .truncated, info := addr })
  | .waiting => .next s
  | .otherKind => .fault .operandKind

/-- The sequencer's step of a running `BANK.PAR` at (`pos`, `k`): one read, of the count byte, of a record
header or of a record's data, or the end after `count` records (R37, R195). -/
def bankParStep (count : Option Byte) (pos k : Nat) (hdr : Option RecHeader) (records : List SampleRecord)
    (s : State) : Result :=
  match count with
  | none => s.withRead (s.inp.readAt pos 1) pos fun b => .bankPar (some (byteAt b 0)) (pos + 1) k hdr records
  | some c =>
    match hdr with
    | some h =>
      s.withRead (s.inp.readAt pos h.length.toNat) pos fun d =>
        .bankPar count (pos + h.length.toNat) (k + 1) none (records ++ [h.record d])
    | none =>
      if k < c.toNat then
        s.withRead (s.inp.readAt pos Config.recHdr) pos fun b =>
          .bankPar count (pos + Config.recHdr) k (some (recHeader b)) records
      else .next (s.finish (.bank { count := c, records := records }))

end Sys2Proof.Machine
end

