-- ==== Sys2Proof/Machine/Endian.lean ====
section
/-! DEFINITION. SampleEndianAdapter: `SWAP` (44_sample_endian_adapter.md). -/

namespace Sys2Proof.Machine

/-- The legal widths are 1 to 4 (R221). -/
def swapCheck (w : Nat) : Except Exn Unit :=
  if w = 0 ∨ w > 4 then .error { err := .precondition, info := w } else .ok ()

/-- Each whole `w`-byte word with its bytes last first; a trailing partial word is dropped (R220). -/
def swapWords (w : Nat) (data : Bytes) : Bytes :=
  (List.range (data.length / w)).flatMap fun j => ((data.drop (w * j)).take w).reverse

/-- `SWAP` as a function of its width and its data (R220). -/
def swap (w : Nat) (data : Bytes) : Except Exn Bytes :=
  match swapCheck w with
  | .error x => .error x
  | .ok _ => .ok (swapWords w data)

/-- `SWAP` once started, its width sampled: the width is checked before any data is read (R220, R236). -/
def swapBody (width : BitVec 3) (s : State) : Result :=
  match swapCheck width.toNat with
  | .error x => .next (s.raise x)
  | .ok _ => s.withOperand s.inp.asBlock (.swap width) fun d => s.finish (.block (swapWords width.toNat d))

/-- `SWAP` (R220). -/
def execSwap (s : State) : Result :=
  s.startOp fun t => swapBody t.argWidth t

end Sys2Proof.Machine
end

