-- ==== Sys2Proof/Machine/Dispatch.lean ====
section
/-! DEFINITION. One arm per instruction (00_scope.md rule R4). -/

namespace Sys2Proof.Machine

/-- The meaning of an instruction. -/
def exec (i : Instr) (s : State) : Host.Outcome State Fault Refusal :=
  match i with
  | .envHeader payload => Sys2Proof.Machine.execEnvHeader payload s
  | .envData payload => Sys2Proof.Machine.execEnvData payload s
  | .envTrailer payload => Sys2Proof.Machine.execEnvTrailer payload s
  | .nibEnc => Sys2Proof.Machine.execNibEnc s
  | .nibDec => Sys2Proof.Machine.execNibDec s
  | .pack => Sys2Proof.Machine.execPack s
  | .unpack => Sys2Proof.Machine.execUnpack s
  | .build => Sys2Proof.Machine.execBuild s
  | .parse => Sys2Proof.Machine.execParse s
  | .bankSer => Sys2Proof.Machine.execBankSer s
  | .bankPar => Sys2Proof.Machine.execBankPar s
  | .swap => Sys2Proof.Machine.execSwap s

end Sys2Proof.Machine
end

