-- ==== Sys2Proof/Machine/Sequencer.lean ====
section
/-! DEFINITION. The sequencer, in place of an instruction fetch (10_state.md rules R34 to R37, R41;
60_exceptions.md rule R246): where the next instruction comes from, and what the block does when there is
none. -/

namespace Sys2Proof.Machine

/-- What the sequencer finds: an instruction to run, or something it does itself. -/
inductive Fetch where
  | instr (i : Instr)
  | other (r : Result)

/-- An idle block whose caller requests an operation: the `op` code is decoded (R100), and a reserved one ends
at once in IllegalOp (R101). -/
def fetchOp (s : State) : Fetch :=
  match decode (.op s.op) with
  | .ok i => .instr i
  | .error _ => .other (.next s.illegalOp)

/-- A running `PARSE` at index `j`: the next envelope is decoded; one that is no instruction is skipped; the end
of the list ends the operation; and while the list is open and has no more, the block waits (R36, R108, R155,
R251). -/
def fetchEnvelope (j : Nat) (s : State) : Fetch :=
  match s.inp.envelopeAt j with
  | .got e =>
    match decode (.envelope e) with
    | .ok i => .instr i
    | .error _ => .other (.next (s.skipEnvelope j))
  | .ended => .other (.next (s.finish .empty))
  | .waiting => .other (.next s)
  | .otherKind => .other (.fault .operandKind)

/-- What the sequencer does with the operation in progress. -/
def resume (r : Running) (s : State) : Fetch :=
  match r with
  | .pack => .other (packBody s)
  | .unpack => .other (unpackBody s)
  | .swap width => .other (swapBody width s)
  | .bankSer pad => .other (bankSerBody pad s)
  | .build offset phase i emitted => .other (buildStep offset phase i emitted s)
  | .parse j => fetchEnvelope j s
  | .bankPar count pos k hdr records => .other (bankParStep count pos k hdr records s)

/-- The next instruction, or what the block does without one.  An idle block without a request waits; a request
while an operation runs has no step (R246). -/
def fetch (s : State) : Fetch :=
  match s.running with
  | none => if s.start then fetchOp s else .other (.next s)
  | some r => if s.start then .other (.fault .startWhileRunning) else resume r s

/-- The shortest whole operand of an operation, all its bytes zero: no bytes, no envelopes, a bank of no records,
or for `BANK.PAR` the one count byte of such a bank. -/
def zeroOperand : Instr → InStream
  | .pack => .block [] true
  | .unpack => .block [] true
  | .build => .block [] true
  | .parse => .envelopes [] true
  | .bankSer => .bank { count := 0, records := [] }
  | .bankPar => .block [0] true
  | .swap => .block [] true
  | .nibEnc => .empty
  | .nibDec => .empty
  | .envHeader _ => .empty
  | .envData _ => .empty
  | .envTrailer _ => .empty

/-- The state whose next step fetches this word: a requested operation with its zero operand, or a running
`PARSE` whose list is this one envelope (assumption log 13). -/
def State.withFetch (w : CodeWord) (s : State) : State :=
  match w with
  | .op code =>
    { s with
      running := none, op := code, start := true,
      present := match decode w with
        | .ok i => zeroOperand i
        | .error _ => .empty }
  | .envelope e => { s with running := some (.parse 0), start := false, inp := .envelopes [e] true }

end Sys2Proof.Machine
end

