-- ==== Sys2Proof/Machine/Step.lean ====
section
/-! DEFINITION. One step of the block (00_scope.md rule R16): the instruction the sequencer finds, or what the
sequencer does without one. -/

namespace Sys2Proof.Machine

/-- One step. -/
def step (s : State) : Host.Outcome State Fault Refusal :=
  match fetch s with
  | .instr i => exec i s
  | .other r => r

/-- `s` with the instruction of an opcode-table row's number where the step fetches its next instruction
(assumption log 13). -/
def State.withFetchWord (s : State) (nbits w : Nat) : State :=
  s.withFetch (tableWord nbits w)

end Sys2Proof.Machine
end

