-- ==== Sys2Proof/Safety.lean ====
section
/-! DEFINITION. The predicates and the spec-side values that claims are stated with: well-formed values (10_state.md
rules R21, R23, R25), packed sequences (41_bitpack_codec.md rules R133 to R135), what a list of envelopes holds
(42_message_assembler.md rule R163), the state an operation ends in (R42), and the machine's invariant. -/

namespace Sys2Proof.Machine

/-- 7-bit-safe: every byte has its high bit clear (R17, R90). -/
abbrev SevenBitSafe (b : Bytes) : Prop := ∀ x ∈ b, x.toNat < 128

/-- `WfRecord` (R21). -/
abbrev WfRecord (r : SampleRecord) : Prop := r.length.toNat = r.data.length

/-- `WfBank` (R23). -/
abbrev WfBank (c : Bank) : Prop := c.count.toNat = c.records.length ∧ ∀ r ∈ c.records, WfRecord r

/-- The size of a record list in the flat buffer: 10 header bytes and the data of each (R96). -/
def recordsSize (rs : List SampleRecord) : Nat := (rs.map fun r => 10 + r.data.length).sum

/-- `size(c)` (R23). -/
def bankSize (c : Bank) : Nat := 1 + recordsSize c.records

/-- `WfTransfer` (R25): one HEADER, then DATA envelopes, then one TRAILER. -/
def WfTransfer (es : List Bytes) : Prop :=
  ∃ h ds t, es = h :: ds ++ [t] ∧ (∃ p, classify h = .header p) ∧ (∀ d ∈ ds, ∃ p, classify d = .data p) ∧
    ∃ p, classify t = .trailer p

/-- `packlen(n)` (R133). -/
def packlen (n : Nat) : Nat := 8 * (n / 7) + if n % 7 = 0 then 0 else 1 + n % 7

/-- `unpacklen(n)` (R134). -/
def unpacklen (n : Nat) : Nat := 7 * (n / 8) + if n % 8 = 0 then 0 else n % 8 - 1

/-- A canonical packed sequence (R135 (a) to (d)). -/
def Canonical (p : Bytes) : Prop :=
  p.length % 8 ≠ 1 ∧
  (∀ i x, i % 8 ≠ 0 → p[i]? = some x → x.toNat ≤ 127) ∧
  (∀ i x, i % 8 = 0 → p[i]? = some x → x.getLsbD 7 = false) ∧
  (∀ i x k, i % 8 = 0 → p[i]? = some x → p.length ≤ i + 1 + k → k ≤ 6 → x.getLsbD k = false)

/-- The value of a nibble field: the low four bits of each byte, the first byte's highest (R104). -/
def nibbleValue (b : Bytes) : Nat := b.foldl (fun n x => 16 * n + x.toNat % 16) 0

/-- A `u32` as four bytes, least significant first (R54, R96). -/
def littleEndian (v : U32) : Bytes := (List.range 4).map fun i => BitVec.ofNat 8 (v.toNat / 256 ^ i)

/-- A serialized record, field by field (R96). -/
def recordLayout (r : SampleRecord) : Bytes :=
  r.channels :: r.bitDepth :: (littleEndian r.sampleRate ++ littleEndian r.length ++ r.data)

/-- A serialized bank (R95). -/
def bankLayout (c : Bank) : Bytes := c.count :: (c.records.map recordLayout).flatten

/-- The record that ten zero bytes stand for (R201). -/
def zeroRecord : SampleRecord := { channels := 0, bitDepth := 0, sampleRate := 0, length := 0, data := [] }

/-- The HEADER payloads of a list, in arrival order (R163). -/
def headerPayloads (es : List Bytes) : List Bytes :=
  es.filterMap fun e => match classify e with | .header p => some p | _ => none

/-- The DATA payloads of a list, in arrival order (R163). -/
def dataPayloads (es : List Bytes) : List Bytes :=
  es.filterMap fun e => match classify e with | .data p => some p | _ => none

/-- The TRAILER payloads of a list, in arrival order (R163). -/
def trailerPayloads (es : List Bytes) : List Bytes :=
  es.filterMap fun e => match classify e with | .trailer p => some p | _ => none

/-- The bytes the DATA envelopes of a list carry, each payload unpacked alone, in arrival order (R52, R161). -/
def received (es : List Bytes) : Bytes := ((dataPayloads es).map unpack).flatten

/-- No envelope of the list raises MalformedEnvelope, and the bytes received fit `ACC` (R160, R162, R166). -/
def Acceptable (es : List Bytes) : Prop :=
  (∀ p ∈ headerPayloads es, p.length = 16) ∧ (∀ p ∈ trailerPayloads es, p.length = 8) ∧
    (received es).length ≤ Config.bufMax

/-- The result registers an acceptable list leaves: the last HEADER and the last TRAILER decide, every DATA is
appended (R163). -/
def parsed (es : List Bytes) : ResultRegs :=
  { len := (headerPayloads es).getLast?.map fun p => BitVec.ofNat 32 (nibbleValue (p.take 8))
    off := (headerPayloads es).getLast?.map fun p => BitVec.ofNat 32 (nibbleValue (p.drop 8))
    csum := (trailerPayloads es).getLast?.map fun p => BitVec.ofNat 32 (nibbleValue p)
    hdrV := !(headerPayloads es).isEmpty
    trlV := !(trailerPayloads es).isEmpty
    acc := received es }

/-- Is the envelope one that `PARSE` ignores (R108)? -/
def ignored (e : Bytes) : Bool :=
  match classify e with
  | .skip => true
  | .unknown _ => true
  | .header _ => false
  | .data _ => false
  | .trailer _ => false

/-- The `ARG_*` registers are as before (R33, R43). -/
def SameArgs (s t : State) : Prop :=
  t.argOffset = s.argOffset ∧ t.argPad = s.argPad ∧ t.argWidth = s.argWidth ∧ t.argValue = s.argValue ∧
    t.argNib = s.argNib

/-- The `CFG_*` registers are as before (R32). -/
def SameConfig (s t : State) : Prop :=
  t.cfgVendorHeader = s.cfgVendorHeader ∧ t.cfgCapacity = s.cfgCapacity ∧
    t.cfgDefaultOffset = s.cfgDefaultOffset

/-- From `s` an operation has ended in `t` with a `STATUS` and an `ERRINFO`; what no operation writes is as before (R42,
R43). -/
def Ended (s t : State) (status : BitVec 4) (info : Nat) : Prop :=
  t.running = none ∧ t.status = status ∧ t.errInfo = info ∧ t.op = s.op ∧ SameArgs s t ∧ SameConfig s t

/-- From `s` an operation has completed in `t` with its result on `out` (R42, R231). -/
def Completed (s t : State) (out : OutStream) : Prop :=
  Ended s t 0 0 ∧ t.out = out ∧ t.res = ResultRegs.cleared

/-- From `s` an operation has ended in `t` in an error (R240). -/
def Failed (s t : State) (code : BitVec 4) (info : Nat) : Prop :=
  Ended s t code info ∧ t.out = .empty ∧ t.res = ResultRegs.cleared

/-- `n` steps. -/
def steps : Nat → State → Result
  | 0, s => .next s
  | n + 1, s =>
    match step s with
    | .next t => steps n t
    | .fault f => .fault f
    | .refused r => .refused r

/-- Started with only `part` of its operand on `in`, the operation is left running; once `whole` has arrived, `n`
more steps end it in the very state that starting it with the whole operand gives (R44). -/
def FinishesLate (i : Instr) (part whole : InStream) (n : Nat) (s : State) : Prop :=
  ∃ t u, exec i { s with present := part } = .next t ∧ t.running ≠ none ∧
    exec i { s with present := whole } = .next u ∧ u.running = none ∧ steps n (t.deliver whole) = .next u

/-- `BUILD`'s phases in their order (R35). -/
def BuildPhase.rank : BuildPhase → Nat
  | .emitHeader => 0
  | .emitData => 1
  | .emitTrailer => 2
  | .done => 3

/-- What holds of the operation in progress (R35, R37): the envelopes `BUILD` has emitted are 7-bit-safe, and
`BANK.PAR` has read `k` well-formed records of at most `count`, of fewer while it is inside one. -/
def Running.Inv : Running → Prop
  | .pack => True
  | .unpack => True
  | .swap _ => True
  | .bankSer _ => True
  | .build _ _ _ emitted => ∀ e ∈ emitted, SevenBitSafe e
  | .parse _ => True
  | .bankPar count _ k hdr records =>
    records.length = k ∧ (∀ r ∈ records, WfRecord r) ∧ (count = none → k = 0 ∧ hdr = none) ∧
      (∀ c, count = some c → k ≤ c.toNat) ∧ ∀ c, count = some c → hdr ≠ none → k < c.toNat

/-- Is the operation a `PARSE`? -/
def Running.isParse : Running → Bool
  | .pack => false
  | .unpack => false
  | .swap _ => false
  | .bankSer _ => false
  | .build _ _ _ _ => false
  | .parse _ => true
  | .bankPar _ _ _ _ _ => false

/-- The machine's invariant.  It holds at reset and every step keeps it. -/
structure State.Inv (s : State) : Prop where
  /-- `LEN` holds a value exactly when `HDR_V` is set (R31). -/
  len_valid : s.res.len.isSome = s.res.hdrV
  /-- `OFF` holds a value exactly when `HDR_V` is set (R31). -/
  off_valid : s.res.off.isSome = s.res.hdrV
  /-- `CSUM` holds a value exactly when `TRL_V` is set (R31). -/
  csum_valid : s.res.csum.isSome = s.res.trlV
  /-- `ACC` has at most `BUF_MAX` bytes (R30, R166). -/
  acc_bound : s.res.acc.length ≤ Config.bufMax
  /-- The reserved codes 7 to 15 are never produced (R231). -/
  status_legal : s.status.toNat ≤ 6
  /-- `ERRINFO` is 0 when `STATUS` is 0 (R42). -/
  info_ok : s.status = 0 → s.errInfo = 0
  /-- While the block is idle after an error, no result can be read (R240). -/
  error_hides : s.running = none → s.status ≠ 0 → s.res = ResultRegs.cleared ∧ s.out = .empty
  /-- While an operation runs, nothing is on `out` and it is not done (R59). -/
  running_hides : s.running ≠ none → s.out = .empty ∧ s.done = false
  /-- Only a `PARSE` writes the result registers (R30). -/
  only_parse : ∀ r, s.running = some r → r.isParse = false → s.res = ResultRegs.cleared
  /-- Every envelope on `out` is 7-bit-safe (R90). -/
  out_safe : ∀ es, s.out = .envelopes es → ∀ e ∈ es, SevenBitSafe e
  /-- Every bank on `out` is well-formed (R21, R23, R195). -/
  out_bank : ∀ c, s.out = .bank c → WfBank c
  /-- The operation in progress is as it should be. -/
  running_inv : ∀ r, s.running = some r → r.Inv

end Sys2Proof.Machine
end

