-- ==== Sys2Proof/Certificates/Slice0/Obligations.lean ====
section
/-! DEFINITION. The statements: what the numbered rules of the spec say the block does. -/

open Sys2Proof Sys2Proof.Machine

/-! ### Encodings -/

/-- R100: the nine operation-select codes. -/
def Obligations.OperationSelectCodesDecode : Prop :=
  decode (.op 0x1) = .ok .nibEnc ∧ decode (.op 0x2) = .ok .nibDec ∧ decode (.op 0x3) = .ok .pack ∧
  decode (.op 0x4) = .ok .unpack ∧ decode (.op 0x5) = .ok .build ∧ decode (.op 0x6) = .ok .parse ∧
  decode (.op 0x7) = .ok .bankSer ∧ decode (.op 0x8) = .ok .bankPar ∧ decode (.op 0x9) = .ok .swap

/-- Words written out byte by byte from R80, R82 and R83 decode to the envelope commands they stand for. -/
def Obligations.EnvelopeWordsDecode : Prop :=
  decode (.envelope [0x00, 0x20, 0x29, 0x00, 0x79, 0x01, 0x00]) = .ok (.envData [0x01, 0x00]) ∧
  decode (.envelope [0x00, 0x20, 0x29, 0x00, 0x7A, 0x0D, 0x0E, 0x0A, 0x0D, 0x0B, 0x0E, 0x0E, 0x0F])
    = .ok (.envTrailer [0x0D, 0x0E, 0x0A, 0x0D, 0x0B, 0x0E, 0x0E, 0x0F]) ∧
  decode (.envelope [0x00, 0x20, 0x29, 0x00, 0x77, 0, 0, 0, 0, 0, 2, 5, 8, 0, 0, 1, 0, 0, 0, 0, 0])
    = .ok (.envHeader [0, 0, 0, 0, 0, 2, 5, 8, 0, 0, 1, 0, 0, 0, 0, 0]) ∧
  decode (.envelope [0x00, 0x20, 0x29, 0x00, 0x78, 0x01]) = .error (.unknownCommand 0x78) ∧
  decode (.envelope [0x00, 0x20, 0x29, 0x01, 0x79, 0x00]) = .error .skipped

/-- No bit of an instruction is dropped by its word: decoding the word of any instruction gives it back. -/
def Obligations.DecodeOfEncodeIsIdentity : Prop :=
  ∀ i : Instr, decode (encode i) = .ok i

/-- Each word is one instruction at most, and it is that instruction's only word. -/
def Obligations.EncodeOfDecodeIsIdentity : Prop :=
  ∀ (w : CodeWord) (i : Instr), decode w = .ok i → encode i = w

/-- R157: the tagged view of a received envelope, case by case. -/
def Obligations.ClassifyGivesTheTaggedView : Prop :=
  ∀ e p : Bytes, ∀ c : Byte,
    (classify e = .header p ↔ e = [0x00, 0x20, 0x29, 0x00, 0x77] ++ p) ∧
    (classify e = .data p ↔ e = [0x00, 0x20, 0x29, 0x00, 0x79] ++ p) ∧
    (classify e = .trailer p ↔ e = [0x00, 0x20, 0x29, 0x00, 0x7A] ++ p) ∧
    (classify e = .unknown c ↔
      (∃ q, e = [0x00, 0x20, 0x29, 0x00, c] ++ q) ∧ c ≠ 0x77 ∧ c ≠ 0x79 ∧ c ≠ 0x7A) ∧
    (classify e = .skip ↔ e.length < 5 ∨ e.take 4 ≠ [0x00, 0x20, 0x29, 0x00])

/-- R115: an envelope of at least five bytes selects an ENV row exactly when its first five bytes, read as a 40-bit
number with byte 0 most significant, are the row's match; and no envelope it does not select runs a command. -/
def Obligations.TableKeysSelectTheEnvelopeCommands : Prop :=
  ∀ e : Bytes, 5 ≤ e.length →
    (envelopeKey e = 0x0020290077 ↔ decode (.envelope e) = .ok (.envHeader (e.drop 5))) ∧
    (envelopeKey e = 0x0020290079 ↔ decode (.envelope e) = .ok (.envData (e.drop 5))) ∧
    (envelopeKey e = 0x002029007A ↔ decode (.envelope e) = .ok (.envTrailer (e.drop 5))) ∧
    (envelopeKey e ≠ 0x0020290077 → envelopeKey e ≠ 0x0020290079 → envelopeKey e ≠ 0x002029007A →
      ∃ r, decode (.envelope e) = .error r)

/-! ### Reset, the step and the sequencer -/

/-- R270: reset leaves the values R42 gives, and a reset of any state, an operation running or not, gives that state. -/
def Obligations.ResetLeavesTheClearedBlock : Prop :=
  ∀ s : State,
    s.assertReset = State.reset ∧
    State.reset.res = { len := none, off := none, csum := none, hdrV := false, trlV := false, acc := [] } ∧
    State.reset.status = 0 ∧ State.reset.errInfo = 0 ∧ State.reset.argOffset = none ∧
    State.reset.argPad = true ∧ State.reset.inp = .empty ∧ State.reset.out = .empty ∧
    State.reset.running = none ∧ SameConfig s State.reset

/-- The invariant holds at reset, where its clause on `done` is the model's choice (assumption log 7). -/
def Obligations.ResetMeetsTheInvariant : Prop :=
  State.reset.Inv

/-- Every step that has a next state keeps the invariant, in every state that meets it.  Its clause on `done` is the
model's choice (assumption log 7). -/
def Obligations.EveryStepKeepsTheInvariant : Prop :=
  ∀ s t : State, s.Inv → step s = .next t → t.Inv

/-- A step of an idle block whose caller requests an operation is exec of the operation its code names; a step of a
running `PARSE` whose next envelope is a command is exec of that command. -/
def Obligations.StepRunsTheDecodedInstruction : Prop :=
  (∀ (s : State) (i : Instr), s.running = none → s.start = true → decode (.op s.op) = .ok i → step s = exec i s) ∧
  (∀ (s : State) (i : Instr) (j : Nat) (es : List Bytes) (eos : Bool) (e : Bytes),
    s.running = some (.parse j) → s.start = false → s.inp = .envelopes es eos → es[j]? = some e →
    decode (.envelope e) = .ok i → step s = exec i s)

/-- R101: a start with a reserved code ends at once in IllegalOp, every result register cleared, the `ARG_*` and
`CFG_*` registers unchanged. -/
def Obligations.ReservedCodeEndsInIllegalOp : Prop :=
  ∀ s : State, s.running = none → s.start = true → (s.op = 0x0 ∨ 0xA ≤ s.op.toNat) →
    ∃ t, step s = .next t ∧ Failed s t 6 s.op.toNat

/-- An idle block without a request, and a `PARSE` whose open list has no more envelopes, wait: nothing changes (R251,
R271).  That the wait is a step which changes nothing is the model's choice (assumption log 4). -/
def Obligations.BlockWaitsWithoutInput : Prop :=
  (∀ s : State, s.running = none → s.start = false → step s = .next s) ∧
  (∀ (s : State) (es : List Bytes), s.running = some (.parse es.length) → s.start = false →
    s.inp = .envelopes es false → step s = .next s)

/-- R246: a start presented while an operation runs has no step.  Nor has, by the model's choice (assumption logs 8 and
9), a start whose operand is of another kind than R40 gives the operation, or an envelope command while no `PARSE`
runs. -/
def Obligations.WhatHasNoStep : Prop :=
  (∀ s : State, s.running ≠ none → s.start = true → step s = .fault .startWhileRunning) ∧
  (∀ (s : State) (i : Instr), s.running ≠ none → i.isEnv = false → exec i s = .fault .startWhileRunning) ∧
  (∀ (s : State) (b : Bytes) (eob : Bool) (es : List Bytes) (eos : Bool) (c : Bank), s.running = none →
    (s.present = .envelopes es eos ∨ s.present = .bank c →
      exec .pack s = .fault .operandKind ∧ exec .unpack s = .fault .operandKind ∧
      exec .build s = .fault .operandKind ∧ exec .bankPar s = .fault .operandKind ∧
      (1 ≤ s.argWidth.toNat → s.argWidth.toNat ≤ 4 → exec .swap s = .fault .operandKind)) ∧
    (s.present = .block b eob ∨ s.present = .bank c → exec .parse s = .fault .operandKind) ∧
    (s.present = .block b eob ∨ s.present = .envelopes es eos → exec .bankSer s = .fault .operandKind)) ∧
  (∀ (s : State) (i : Instr), i.isEnv = true → (∀ j, s.running ≠ some (.parse j)) →
    exec i s = .refused .envelopeOutsideParse)

/-- R36, R108: an envelope that is no command is skipped by a running `PARSE`: the position advances by one and nothing
else changes. -/
def Obligations.SkippedEnvelopeOnlyAdvancesThePosition : Prop :=
  ∀ (s : State) (j : Nat) (es : List Bytes) (eos : Bool) (e : Bytes),
    s.running = some (.parse j) → s.start = false → s.inp = .envelopes es eos → es[j]? = some e →
    ignored e = true → step s = .next { s with running := some (.parse (j + 1)) }

/-! ### NibbleCodec -/

/-- R120: `NIB.ENC`. -/
def Obligations.NibEncGivesTheNibbles : Prop :=
  ∀ s : State, s.running = none → decode (.op 0x1) = .ok .nibEnc ∧
    ∃ b : Bytes, b.length = 8 ∧
      (∀ i, i < 8 → b[i]? = some (((s.argValue >>> (4 * (7 - i))) &&& 0xF#32).setWidth 8)) ∧
      (∀ x ∈ b, x.toNat ≤ 15) ∧ ∃ t, exec .nibEnc s = .next t ∧ Completed s t (.block b)

/-- R121: `NIB.DEC`.  That its u32 result stands on `out` is the model's choice (assumption log 6). -/
def Obligations.NibDecFoldsTheNibbles : Prop :=
  ∀ s : State, s.running = none → decode (.op 0x2) = .ok .nibDec ∧
    ∃ v : U32,
      v.toNat = ((List.range 8).map fun i => ((byteAt s.argNib.toList i).toNat % 16) <<< (4 * (7 - i))).sum ∧
      ∃ t, exec .nibDec s = .next t ∧ Completed s t (.value v)

/-- R122: the laws of the two codecs. -/
def Obligations.NibbleCodecLaws : Prop :=
  (∀ (v : U32) (h : (nibenc v).length = 8), nibdec (nibenc v) h = v) ∧
  (∀ (b : Bytes) (h : b.length = 8) (i : Nat), i < 8 →
    (nibenc (nibdec b h))[i]? = (b[i]?).map fun x => x &&& 0x0F#8) ∧
  (∀ (b : Bytes) (h : b.length = 8), nibenc (nibdec b h) = b ↔ ∀ x ∈ b, x.toNat ≤ 0x0F) ∧
  (∀ v w : U32, nibenc v = nibenc w → v = w) ∧
  (∀ v : U32, ∃ b, ∃ h : b.length = 8, nibdec b h = v) ∧
  (∀ v : U32, Set.ncard { b : Bytes | ∃ h : b.length = 8, nibdec b h = v } = 16 ^ 8)

/-! ### BitPackCodec -/

/-- R130: `PACK`, byte by byte: at the head of packed group `j` its flag byte, and after it the group's bytes with the
high bit cleared. -/
def Obligations.PackGivesThePackedGroups : Prop :=
  ∀ (s : State) (d : Bytes), s.running = none → s.present = .block d true → decode (.op 0x3) = .ok .pack ∧
    ∃ (t : State) (p : Bytes), exec .pack s = .next t ∧ Completed s t (.block p) ∧ p.length = packlen d.length ∧
      (∀ n x, d[n]? = some x → p[8 * (n / 7) + 1 + n % 7]? = some (x &&& 0x7F#8)) ∧
      (∀ j, 7 * j < d.length → ∃ flag, p[8 * j]? = some flag ∧
        ∀ k, k < 8 → flag.getLsbD k = (decide (k < 7) && (byteAt d (7 * j + k)).getLsbD 7)) ∧
      ∀ x ∈ p, x.toNat ≤ 0x7F

/-- R131: `UNPACK`, byte by byte: a data byte gets its high bit set when the flag bit at its position is set. -/
def Obligations.UnpackMergesTheFlagBits : Prop :=
  ∀ (s : State) (p : Bytes), s.running = none → s.present = .block p true → decode (.op 0x4) = .ok .unpack ∧
    ∃ (t : State) (d : Bytes), exec .unpack s = .next t ∧ Completed s t (.block d) ∧ d.length = unpacklen p.length ∧
      ∀ j k x, k < 7 → p[8 * j + 1 + k]? = some x →
        d[7 * j + k]? = some (if (byteAt p (8 * j)).getLsbD k then x ||| 0x80#8 else x)

/-- R132: the round-trip law. -/
def Obligations.UnpackOfPackIsIdentity : Prop :=
  ∀ x : Bytes, unpack (pack x) = x

/-- R133: the pack length law, and that `packlen` is strictly increasing. -/
def Obligations.PackLengthLaw : Prop :=
  (∀ x : Bytes, (pack x).length = 8 * (x.length / 7) + if x.length % 7 = 0 then 0 else 1 + x.length % 7) ∧
  (∀ m n : Nat, m < n → packlen m < packlen n)

/-- R134: the unpack length law, and how the two length functions undo each other. -/
def Obligations.UnpackLengthLaw : Prop :=
  (∀ p : Bytes, (unpack p).length = 7 * (p.length / 8) + if p.length % 8 = 0 then 0 else p.length % 8 - 1) ∧
  (∀ n : Nat, unpacklen (packlen n) = n) ∧
  (∀ n : Nat, packlen (unpacklen n) = if n % 8 = 1 then n - 1 else n)

/-- R135: the canonical packed sequences are those `PACK` gives. -/
def Obligations.CanonicalPackedSequences : Prop :=
  (∀ x : Bytes, Canonical (pack x)) ∧
  (∀ p : Bytes, pack (unpack p) = p ↔ Canonical p) ∧
  (∀ p q : Bytes, Canonical p → Canonical q → unpack p = unpack q → p = q) ∧
  (∃ p q : Bytes, unpack p = unpack q ∧ p ≠ q)

/-- R136, R137: a lone flag byte yields nothing, and `PACK` never produces one; flag bit 7 and the flag bits of absent
data bytes are never examined; a data byte that arrives with bit 7 set keeps it. -/
def Obligations.NonCanonicalInputToUnpack : Prop :=
  (∀ (p : Bytes) (flag : Byte), p.length % 8 = 0 → unpack (p ++ [flag]) = unpack p) ∧
  (∀ x : Bytes, (pack x).length % 8 ≠ 1) ∧
  (∀ (p ds q : Bytes) (f g : Byte), p.length % 8 = 0 → ds.length ≤ 7 → (ds.length = 7 ∨ q = []) →
    (∀ k, k < ds.length → f.getLsbD k = g.getLsbD k) → unpack (p ++ f :: ds ++ q) = unpack (p ++ g :: ds ++ q)) ∧
  (∀ (p : Bytes) (i : Nat) (x : Byte), i % 8 ≠ 0 → p[i]? = some x → x.getLsbD 7 = true →
    (unpack p)[7 * (i / 8) + (i % 8 - 1)]? = some x)

/-- R138: the concatenation laws, and that neither holds in general. -/
def Obligations.PackingConcatenationLaws : Prop :=
  (∀ a b : Bytes, a.length % 7 = 0 → pack (a ++ b) = pack a ++ pack b) ∧
  (∀ p q : Bytes, p.length % 8 = 0 → unpack (p ++ q) = unpack p ++ unpack q) ∧
  (∃ a b : Bytes, pack (a ++ b) ≠ pack a ++ pack b) ∧
  (∃ a b : Bytes, a.length = 256 ∧ (pack a).length = 293 ∧ unpack (pack a ++ pack b) ≠ a ++ b)

/-! ### MessageAssembler -/

/-- R150, R151, R152: `BUILD` gives one HEADER, one DATA for each chunk in order and one TRAILER; and it refuses a flat
buffer longer than `BUF_MAX`. -/
def Obligations.BuildGivesTheTransfer : Prop :=
  ∀ (s : State) (b : Bytes), s.running = none → s.present = .block b true →
    decode (.op 0x5) = .ok .build ∧
    (b.length > 2 ^ 32 - 1 → ∃ t, exec .build s = .next t ∧ Failed s t 4 b.length) ∧
    (b.length ≤ 2 ^ 32 - 1 →
      ∃ (t : State) (off : U32) (ds : List Bytes),
        (s.argOffset = some off ∨ s.argOffset = none ∧ off = s.cfgDefaultOffset) ∧
        ds.length = (b.length + 255) / 256 ∧
        (∀ i, i < ds.length →
          ds[i]? = some ([0x00, 0x20, 0x29, 0x00, 0x79] ++ pack ((b.drop (256 * i)).take 256))) ∧
        exec .build s = .next t ∧ Completed s t (.envelopes
          (([0x00, 0x20, 0x29, 0x00, 0x77] ++ nibenc (BitVec.ofNat 32 b.length) ++ nibenc off) :: ds
            ++ [[0x00, 0x20, 0x29, 0x00, 0x7A] ++ nibenc (Config.crc b)])))

/-- R153, R81, R90, R295: the shape and the size of what `BUILD` emits, for every checksum function and offset. -/
def Obligations.BuildOutputShape : Prop :=
  ∀ (crc : Bytes → U32) (off : U32) (b : Bytes),
    (buildEnvelopes crc off b).length = 2 + (b.length + 255) / 256 ∧
    WfTransfer (buildEnvelopes crc off b) ∧
    (buildEnvelopes crc off b).map List.length
      = 21 :: (slices 256 b).map (fun c => 5 + packlen c.length) ++ [13] ∧
    (∀ e ∈ buildEnvelopes crc off b, SevenBitSafe e) ∧
    (slices 256 b).flatten = b ∧
    ((buildEnvelopes crc off b).map List.length).sum
      = 21 + 13 + 5 * ((b.length + 255) / 256) + 293 * (b.length / 256) + packlen (b.length % 256)

/-- R155, R163, R165: `PARSE` of any list that raises no error: every DATA is appended wherever it stands, the last
HEADER and the last TRAILER decide, and nothing is verified. -/
def Obligations.ParseGivesWhatTheEnvelopesHold : Prop :=
  ∀ (s : State) (es : List Bytes), s.running = none → s.present = .envelopes es true → Acceptable es →
    decode (.op 0x6) = .ok .parse ∧ ∃ t, exec .parse s = .next t ∧ Ended s t 0 0 ∧ t.res = parsed es

/-- R156: `PARSE` is the left fold of `parse_step` over the envelopes, each with its index, from the cleared state. -/
def Obligations.ParseIsTheFoldOfParseStep : Prop :=
  ∀ es : List Bytes,
    parse es = es.zipIdx.foldlM (fun r ej => parseStep ej.1 ej.2 r)
      { len := none, off := none, csum := none, hdrV := false, trlV := false, acc := [] }

/-- R236, R160, R162, R166: the first envelope that raises ends `PARSE` with its index; the envelopes after it are not
examined. -/
def Obligations.ParseEndsAtTheFirstError : Prop :=
  ∀ (s : State) (pre post : List Bytes) (e p : Bytes), s.running = none →
    s.present = .envelopes (pre ++ e :: post) true → Acceptable pre →
    (classify e = .header p → p.length ≠ 16 → ∃ t, exec .parse s = .next t ∧ Failed s t 3 pre.length) ∧
    (classify e = .trailer p → p.length ≠ 8 → ∃ t, exec .parse s = .next t ∧ Failed s t 3 pre.length) ∧
    (classify e = .data p → (received pre).length + (unpack p).length > 4294967295 →
      ∃ t, exec .parse s = .next t ∧ Failed s t 5 pre.length)

/-- R160: `ENV.HEADER` at position `j`. -/
def Obligations.EnvHeaderSetsLengthAndOffset : Prop :=
  ∀ (s : State) (p : Bytes) (j : Nat), s.running = some (.parse j) →
    (p.length = 16 → exec (.envHeader p) s = .next { s with
      res := { s.res with
        len := some (BitVec.ofNat 32 (nibbleValue (p.take 8)))
        off := some (BitVec.ofNat 32 (nibbleValue (p.drop 8)))
        hdrV := true }
      running := some (.parse (j + 1)) }) ∧
    (p.length ≠ 16 → ∃ t, exec (.envHeader p) s = .next t ∧ Failed s t 3 j)

/-- R161: `ENV.DATA` at position `j`. -/
def Obligations.EnvDataAppendsTheUnpackedPayload : Prop :=
  ∀ (s : State) (p : Bytes) (j : Nat), s.running = some (.parse j) →
    (s.res.acc.length + (unpack p).length ≤ 4294967295 → exec (.envData p) s = .next { s with
      res := { s.res with acc := s.res.acc ++ unpack p }
      running := some (.parse (j + 1)) }) ∧
    (s.res.acc.length + (unpack p).length > 4294967295 → ∃ t, exec (.envData p) s = .next t ∧ Failed s t 5 j)

/-- R162: `ENV.TRAILER` at position `j`. -/
def Obligations.EnvTrailerSetsTheChecksum : Prop :=
  ∀ (s : State) (p : Bytes) (j : Nat), s.running = some (.parse j) →
    (p.length = 8 → exec (.envTrailer p) s = .next { s with
      res := { s.res with csum := some (BitVec.ofNat 32 (nibbleValue p)), trlV := true }
      running := some (.parse (j + 1)) }) ∧
    (p.length ≠ 8 → ∃ t, exec (.envTrailer p) s = .next t ∧ Failed s t 3 j)

/-- R167: the assembler round trip, on the machine and for every checksum function. -/
def Obligations.AssemblerRoundTrip : Prop :=
  (∀ (s : State) (b : Bytes), s.running = none → s.present = .block b true → b.length ≤ 4294967295 →
    ∃ (t u : State) (es : List Bytes) (off : U32),
      (s.argOffset = some off ∨ s.argOffset = none ∧ off = s.cfgDefaultOffset) ∧
      exec .build s = .next t ∧ t.out = .envelopes es ∧
      exec .parse (t.request 0x6 (.envelopes es true)) = .next u ∧ u.status = 0 ∧ u.errInfo = 0 ∧
      u.running = none ∧
      u.res = { len := some (BitVec.ofNat 32 b.length), off := some off, csum := some (Config.crc b),
                hdrV := true, trlV := true, acc := b } ∧
      u.res.verified Config.crc = true) ∧
  (∀ (crc : Bytes → U32) (off : U32) (b : Bytes), b.length ≤ 4294967295 →
    parse (buildEnvelopes crc off b) = .ok
      { len := some (BitVec.ofNat 32 b.length), off := some off, csum := some (crc b),
        hdrV := true, trlV := true, acc := b })

/-- R168: envelopes that `PARSE` ignores do not change its results wherever they stand; and a transfer whose DATA
envelopes were dropped, duplicated or reordered still parses, to the bytes as received, `Verified` then asking the
length and the checksum of those bytes. -/
def Obligations.RoundTripIsRobustToForeignTraffic : Prop :=
  (∀ (es : List Bytes) (r : ResultRegs),
    parse es = .ok r ↔ parse (es.filter fun e => !ignored e) = .ok r) ∧
  (∀ (crc : Bytes → U32) (off : U32) (b : Bytes) (h t : Bytes) (ds ds' : List Bytes), b.length ≤ 4294967295 →
    buildEnvelopes crc off b = h :: ds ++ [t] → (∀ d ∈ ds', d ∈ ds) → (received ds').length ≤ 4294967295 →
    ∃ r, parse (h :: ds' ++ [t]) = .ok r ∧ r.acc = received ds' ∧
      (r.verified crc = true ↔ (received ds').length = b.length ∧ crc (received ds') = crc b))

/-! ### SampleBankContainer -/

/-- R190, R192, R193: `BANK.SER` lays the bank out with `count` as supplied, and pads it with zero bytes to `CAPACITY`
when `ARG_PAD` is 1. -/
def Obligations.BankSerLaysOutTheBank : Prop :=
  ∀ (s : State) (c : Bank), s.running = none → s.present = .bank c → (∀ r ∈ c.records, WfRecord r) →
    bankSize c ≤ s.cfgCapacity →
    decode (.op 0x7) = .ok .bankSer ∧ (bankLayout c).length = bankSize c ∧
    ∃ t, exec .bankSer s = .next t ∧
      (s.argPad = true →
        Completed s t (.block (bankLayout c ++ List.replicate (s.cfgCapacity - bankSize c) 0))) ∧
      (s.argPad = false → Completed s t (.block (bankLayout c)))

/-- R191, R236: `BANK.SER` refuses a record whose `length` is not the length of its data, names the first, and does so
whatever the size. -/
def Obligations.BankSerRefusesAnIllFormedRecord : Prop :=
  ∀ (s : State) (n : Byte) (pre post : List SampleRecord) (r : SampleRecord), s.running = none →
    s.present = .bank { count := n, records := pre ++ r :: post } → (∀ q ∈ pre, WfRecord q) → ¬ WfRecord r →
    ∃ t, exec .bankSer s = .next t ∧ Failed s t 4 pre.length

/-- R193: `BANK.SER` of a bank larger than `CAPACITY` fails with the size, whatever `ARG_PAD` is. -/
def Obligations.BankSerRefusesAnOversizedBank : Prop :=
  ∀ (s : State) (c : Bank), s.running = none → s.present = .bank c → (∀ r ∈ c.records, WfRecord r) →
    bankSize c > s.cfgCapacity → ∃ t, exec .bankSer s = .next t ∧ Failed s t 2 (bankSize c)

/-- R195, R198: `BANK.PAR` of a buffer that starts with a serialized bank gives the bank, whatever bytes follow. -/
def Obligations.BankParReadsTheBank : Prop :=
  ∀ (s : State) (c : Bank) (tail : Bytes), s.running = none → WfBank c →
    s.present = .block (bankLayout c ++ tail) true →
    decode (.op 0x8) = .ok .bankPar ∧ ∃ t, exec .bankPar s = .next t ∧ Completed s t (.bank c)

/-- R196, R197: where `BANK.PAR` fails with Truncated, and the index it names: no count byte; fewer than ten bytes
where a header is due; or fewer bytes than a header's `length` where its data is due. -/
def Obligations.BankParTruncated : Prop :=
  ∀ (s : State) (n : Byte) (rs : List SampleRecord) (rest : Bytes), s.running = none →
    (∀ r ∈ rs, WfRecord r) → rs.length < n.toNat →
    (s.present = .block [] true → ∃ t, exec .bankPar s = .next t ∧ Failed s t 1 0) ∧
    (s.present = .block (bankLayout { count := n, records := rs } ++ rest) true → rest.length < 10 →
      ∃ t, exec .bankPar s = .next t ∧ Failed s t 1 (1 + recordsSize rs)) ∧
    (∀ r : SampleRecord,
      s.present = .block (bankLayout { count := n, records := rs } ++ recordLayout r) true →
      r.data.length < r.length.toNat →
      ∃ t, exec .bankPar s = .next t ∧ Failed s t 1 (1 + recordsSize rs + 10))

/-- R199: the container round trip on the machine, padded or not. -/
def Obligations.ContainerRoundTrip : Prop :=
  ∀ (s : State) (c : Bank), s.running = none → s.present = .bank c → WfBank c → bankSize c ≤ s.cfgCapacity →
    ∃ (t u : State) (b : Bytes), exec .bankSer s = .next t ∧ t.out = .block b ∧
      exec .bankPar (t.request 0x8 (.block b true)) = .next u ∧ u.status = 0 ∧ u.out = .bank c

/-- R201: what `BANK.PAR` makes of a bank serialized with a wrong `count`, for every capacity. -/
def Obligations.WrongCountIsNotDetected : Prop :=
  ∀ (capacity : Nat) (c : Bank) (pad : Bool) (out : Bytes), (∀ r ∈ c.records, WfRecord r) →
    bankSer capacity c pad = .ok out →
    (c.count.toNat < c.records.length →
      bankPar out = .ok { count := c.count, records := c.records.take c.count.toNat }) ∧
    (c.records.length < c.count.toNat → pad = false →
      bankPar out = .error { err := .truncated, info := out.length }) ∧
    (c.records.length < c.count.toNat → pad = true →
      10 * (c.count.toNat - c.records.length) ≤ capacity - bankSize c →
      bankPar out = .ok
        { count := c.count
          records := c.records ++ List.replicate (c.count.toNat - c.records.length) zeroRecord }) ∧
    (c.records.length < c.count.toNat → pad = true →
      capacity - bankSize c < 10 * (c.count.toNat - c.records.length) →
      ∃ info, bankPar out = .error { err := .truncated, info := info })

/-- R37, R197: the cursor of a running `BANK.PAR` never moves back and never passes the end of the buffer, and the
number of records read advances by at most one. -/
def Obligations.BankParCursorStaysInTheBuffer : Prop :=
  ∀ (s t : State) (b : Bytes) (eob : Bool) (c c' : Option Byte) (pos k pos' k' : Nat) (h h' : Option RecHeader)
    (rs rs' : List SampleRecord),
    s.start = false → s.inp = .block b eob → s.running = some (.bankPar c pos k h rs) → pos ≤ b.length →
    step s = .next t → t.running = some (.bankPar c' pos' k' h' rs') →
    pos ≤ pos' ∧ pos' ≤ b.length ∧ k ≤ k' ∧ k' ≤ k + 1

/-! ### SampleEndianAdapter -/

/-- R220, R221: `SWAP` of a legal width reverses the bytes of each whole word and drops the rest; it refuses every other
width, whatever stands on `in`. -/
def Obligations.SwapReversesWholeWords : Prop :=
  ∀ s : State, s.running = none →
    decode (.op 0x9) = .ok .swap ∧
    (s.argWidth.toNat = 0 ∨ 4 < s.argWidth.toNat →
      ∃ t, exec .swap s = .next t ∧ Failed s t 4 s.argWidth.toNat) ∧
    (1 ≤ s.argWidth.toNat → s.argWidth.toNat ≤ 4 → ∀ d : Bytes, s.present = .block d true →
      ∃ (t : State) (out : Bytes), exec .swap s = .next t ∧ Completed s t (.block out) ∧
        out.length = d.length - d.length % s.argWidth.toNat ∧
        ∀ j k, j < d.length / s.argWidth.toNat → k < s.argWidth.toNat →
          out[s.argWidth.toNat * j + k]? = d[s.argWidth.toNat * j + (s.argWidth.toNat - 1 - k)]?)

/-- R222: the laws of `SWAP`. -/
def Obligations.SwapTwiceTruncates : Prop :=
  ∀ (w : Nat) (x : Bytes), 1 ≤ w → w ≤ 4 →
    ∃ y, swap w x = .ok y ∧ y.length = x.length - x.length % w ∧
      swap w y = .ok (x.take (x.length - x.length % w)) ∧
      (swap w y = .ok x ↔ x.length % w = 0)

/-! ### Frames and rules of the whole machine -/

/-- R43, R58, R71: what an operation leaves unchanged: the argument and configuration registers, the `op` code and its
operand on `in`; and only `PARSE` leaves result registers.  The clauses on `start`, `present`, `inp` and `done` are about
the model's form of the ports (assumption logs 5, 7 and 19). -/
def Obligations.OperationFrame : Prop :=
  ∀ (i : Instr) (s t : State), i.isEnv = false → exec i s = .next t →
    SameArgs s t ∧ SameConfig s t ∧ t.op = s.op ∧ (i ≠ .parse → t.res = ResultRegs.cleared) ∧
    (t.running ≠ none → t.out = .empty ∧ t.status = s.status ∧ t.errInfo = s.errInfo) ∧
    t.start = false ∧ t.present = .empty ∧ t.inp = s.present ∧ (t.done = true ↔ t.running = none)

/-- R156, R160, R161, R162: what an envelope command leaves unchanged. -/
def Obligations.EnvelopeCommandFrame : Prop :=
  ∀ (i : Instr) (s t : State), i.isEnv = true → exec i s = .next t →
    SameArgs s t ∧ SameConfig s t ∧ t.op = s.op ∧ t.start = s.start ∧ t.present = s.present ∧ t.inp = s.inp ∧
    (t.running ≠ none →
      t.out = s.out ∧ t.done = s.done ∧ t.status = s.status ∧ t.errInfo = s.errInfo ∧
      ((∃ p, i = .envHeader p) →
        t.res.csum = s.res.csum ∧ t.res.trlV = s.res.trlV ∧ t.res.acc = s.res.acc) ∧
      ((∃ p, i = .envData p) →
        t.res.len = s.res.len ∧ t.res.off = s.res.off ∧ t.res.csum = s.res.csum ∧
        t.res.hdrV = s.res.hdrV ∧ t.res.trlV = s.res.trlV) ∧
      ((∃ p, i = .envTrailer p) →
        t.res.len = s.res.len ∧ t.res.off = s.res.off ∧ t.res.hdrV = s.res.hdrV ∧ t.res.acc = s.res.acc))

/-- R240: an instruction that ends in an error leaves the code, the information and nothing else: no result, the
arguments and the configuration as they were, the block idle; and an operation that ends without an error has `STATUS`
and `ERRINFO` 0.  The clauses on `inp` and `done` are about the model's form of the ports (assumption logs 5 and 7). -/
def Obligations.ErrorLeavesNothingBehind : Prop :=
  ∀ (i : Instr) (s t : State), exec i s = .next t → t.running = none →
    Ended s t t.status t.errInfo ∧ t.done = true ∧
    (i.isEnv = false → t.inp = s.present) ∧ (i.isEnv = true → t.inp = s.inp ∧ t.status ≠ 0) ∧
    (t.status ≠ 0 → Failed s t t.status t.errInfo) ∧ (t.status = 0 → t.errInfo = 0)

/-- R240: whatever raises it and at whatever step, an error leaves no result that can be read, the operand, the
arguments and the configuration as they were, and an idle block.  The clauses on `done`, `start` and `inp` are about the
model's form of the ports (assumption logs 5, 7 and 19). -/
def Obligations.EveryErrorLeavesNoResult : Prop :=
  ∀ s t : State, step s = .next t → (s.running ≠ none ∨ s.start = true) → t.running = none → t.status ≠ 0 →
    t.out = .empty ∧ t.res = ResultRegs.cleared ∧ t.done = true ∧ t.start = false ∧
    SameArgs s t ∧ SameConfig s t ∧
    (s.running = none → t.inp = s.present) ∧ (s.running ≠ none → t.inp = s.inp)

/-- R43, R71: no step writes an `ARG_*` or `CFG_*` register or the `op` code. -/
def Obligations.EveryStepLeavesTheArguments : Prop :=
  ∀ s t : State, step s = .next t → SameArgs s t ∧ SameConfig s t ∧ t.op = s.op

/-- R40: the errors each operation can end in. -/
def Obligations.ErrorsOfEachOperation : Prop :=
  ∀ (i : Instr) (s t : State), exec i s = .next t → t.running = none →
    match i with
    | .envHeader _ => t.status = 3
    | .envData _ => t.status = 5
    | .envTrailer _ => t.status = 3
    | .nibEnc => t.status = 0
    | .nibDec => t.status = 0
    | .pack => t.status = 0
    | .unpack => t.status = 0
    | .build => t.status = 0 ∨ t.status = 4
    | .parse => t.status = 0 ∨ t.status = 3 ∨ t.status = 5
    | .bankSer => t.status = 0 ∨ t.status = 2 ∨ t.status = 4
    | .bankPar => t.status = 0 ∨ t.status = 1
    | .swap => t.status = 0 ∨ t.status = 4

/-- R38: `HDR_V` is set by a HEADER envelope and `TRL_V` by a TRAILER envelope, and by nothing else. -/
def Obligations.ValidBitsAreSetByTheirEnvelopesOnly : Prop :=
  (∀ s t : State, s.res.hdrV = false → step s = .next t → t.res.hdrV = true →
    (∃ p, fetch s = .instr (.envHeader p)) ∨
    (fetch s = .instr .parse ∧ ∃ es, s.present = .envelopes es true ∧ headerPayloads es ≠ [])) ∧
  (∀ s t : State, s.res.trlV = false → step s = .next t → t.res.trlV = true →
    (∃ p, fetch s = .instr (.envTrailer p)) ∨
    (fetch s = .instr .parse ∧ ∃ es, s.present = .envelopes es true ∧ trailerPayloads es ≠ []))

/-- R39, R241, R272: an operation's outcome depends on its operands, its arguments and the configuration alone, never
on what an earlier operation left, an error included. -/
def Obligations.EarlierOperationsLeaveNoTrace : Prop :=
  ∀ (i : Instr) (s t : State) (stream : InStream) (out : OutStream) (done : Bool) (res : ResultRegs)
    (status : BitVec 4) (info : Nat),
    i.isEnv = false → s.running = none → exec i s = .next t → t.running = none →
    exec i { s with inp := stream, out := out, done := done, res := res, status := status, errInfo := info }
      = .next t

/-- R71: a change of the `ARG_*` registers while an operation runs has no effect on it. -/
def Obligations.ArgumentsAreSampledAtTheStart : Prop :=
  ∀ (s : State) (o : Option U32) (p : Bool) (w : BitVec 3) (v : U32) (n : Vector Byte 8), s.running ≠ none →
    step { s with argOffset := o, argPad := p, argWidth := w, argValue := v, argNib := n } =
      match step s with
      | .next t => .next { t with argOffset := o, argPad := p, argWidth := w, argValue := v, argNib := n }
      | .fault f => .fault f
      | .refused r => .refused r

/-- R59, R42: while an operation runs the caller sees no result on `out`, and `STATUS` and `ERRINFO` are still those of
the operation before.  What `done` shows is the model's choice (assumption log 7). -/
def Obligations.RunningOperationShowsNothing : Prop :=
  ∀ s t : State, s.Inv → step s = .next t → t.running ≠ none →
    t.out = .empty ∧ t.done = false ∧ t.status = s.status ∧ t.errInfo = s.errInfo

/-! ### The step-by-step sequencer agrees with the operations -/

/-- R35: the phase of a running `BUILD` never goes back, and in EMIT_DATA the index advances by one per envelope. -/
def Obligations.BuildPositionMovesForward : Prop :=
  ∀ (s t : State) (off off' : U32) (ph ph' : BuildPhase) (i i' : Nat) (em em' : List Bytes),
    s.running = some (.build off ph i em) → s.start = false → step s = .next t →
    t.running = some (.build off' ph' i' em') →
    off' = off ∧ ph.rank ≤ ph'.rank ∧
    (ph = .emitData → ph' = .emitData → s.inp.asBlock ≠ .pending → i' = i + 1 ∧ em'.length = em.length + 1) ∧
    (ph = .emitData → ph' ≠ .emitData → ∃ b, s.inp = .block b true ∧ b.length ≤ 256 * i ∧ em' = em)

/-- R44: an operation whose operand comes late ends as it does when started with the whole operand.  That it waits,
and that its request does not stand while it runs, are the model's choice (assumption logs 3, 4 and 19). -/
def Obligations.LateOperandGivesTheSameResult : Prop :=
  ∀ (s : State) (part : InStream) (b : Bytes) (c : Bank), s.running = none →
    (part = .empty ∨ ∃ b0, part = .block b0 false) →
    FinishesLate .pack part (.block b true) 1 s ∧ FinishesLate .unpack part (.block b true) 1 s ∧
    (1 ≤ s.argWidth.toNat → s.argWidth.toNat ≤ 4 → FinishesLate .swap part (.block b true) 1 s) ∧
    FinishesLate .bankSer .empty (.bank c) 1 s

/-- R44, R36, R156: `PARSE` run envelope by envelope, each envelope command an instruction of its own, ends as the
fold does.  That it waits, the number of steps, and that its request does not stand while it runs are the model's choice
(assumption logs 3, 4 and 19). -/
def Obligations.ParseStepByStepAgrees : Prop :=
  ∀ (s : State) (part : InStream) (es : List Bytes), s.running = none →
    (part = .empty ∨ ∃ es0, part = .envelopes es0 false) →
    FinishesLate .parse part (.envelopes es true) (es.length + 1) s

/-- R44, R35: `BUILD` run phase by phase and chunk by chunk ends as the whole operation does.  That it waits,
the number of steps, and that its request does not stand while it runs are the model's choice (assumption logs 3, 4 and
19). -/
def Obligations.BuildStepByStepAgrees : Prop :=
  ∀ (s : State) (part : InStream) (b : Bytes), s.running = none →
    (part = .empty ∨ ∃ b0, part = .block b0 false) →
    FinishesLate .build part (.block b true) ((b.length + 255) / 256 + 4) s

/-- R44, R37, R251: `BANK.PAR` run read by read ends as the whole operation does, within 512 steps.  That it
waits, the number of steps, and that its request does not stand while it runs are the model's choice (assumption logs 3,
4 and 19). -/
def Obligations.BankParStepByStepAgrees : Prop :=
  ∀ (s : State) (part : InStream) (b : Bytes), s.running = none →
    (part = .empty ∨ ∃ b0, part = .block b0 false) →
    FinishesLate .bankPar part (.block b true) 512 s
end

