-- ==== Sys2Proof/Laws/State.lean ====
section
/-! SUPPORT. What each update of the state does to each field, so that no proof unfolds a record update. -/

namespace Sys2Proof.Machine

section
variable (s : State)

@[simp] theorem State.beginOp_op : (s.beginOp).op = s.op := rfl
@[simp] theorem State.beginOp_start : (s.beginOp).start = false := rfl
@[simp] theorem State.beginOp_present : (s.beginOp).present = .empty := rfl
@[simp] theorem State.beginOp_inp : (s.beginOp).inp = s.present := rfl
@[simp] theorem State.beginOp_out : (s.beginOp).out = .empty := rfl
@[simp] theorem State.beginOp_done : (s.beginOp).done = false := rfl
@[simp] theorem State.beginOp_res : (s.beginOp).res = ResultRegs.cleared := rfl
@[simp] theorem State.beginOp_status : (s.beginOp).status = s.status := rfl
@[simp] theorem State.beginOp_errInfo : (s.beginOp).errInfo = s.errInfo := rfl
@[simp] theorem State.beginOp_argOffset : (s.beginOp).argOffset = s.argOffset := rfl
@[simp] theorem State.beginOp_argPad : (s.beginOp).argPad = s.argPad := rfl
@[simp] theorem State.beginOp_argWidth : (s.beginOp).argWidth = s.argWidth := rfl
@[simp] theorem State.beginOp_argValue : (s.beginOp).argValue = s.argValue := rfl
@[simp] theorem State.beginOp_argNib : (s.beginOp).argNib = s.argNib := rfl
@[simp] theorem State.beginOp_running : (s.beginOp).running = s.running := rfl

end

section
variable (out : OutStream) (s : State)

@[simp] theorem State.finish_op : (s.finish out).op = s.op := rfl
@[simp] theorem State.finish_start : (s.finish out).start = s.start := rfl
@[simp] theorem State.finish_present : (s.finish out).present = s.present := rfl
@[simp] theorem State.finish_inp : (s.finish out).inp = s.inp := rfl
@[simp] theorem State.finish_out : (s.finish out).out = out := rfl
@[simp] theorem State.finish_done : (s.finish out).done = true := rfl
@[simp] theorem State.finish_res : (s.finish out).res = s.res := rfl
@[simp] theorem State.finish_status : (s.finish out).status = statusOk := rfl
@[simp] theorem State.finish_errInfo : (s.finish out).errInfo = 0 := rfl
@[simp] theorem State.finish_argOffset : (s.finish out).argOffset = s.argOffset := rfl
@[simp] theorem State.finish_argPad : (s.finish out).argPad = s.argPad := rfl
@[simp] theorem State.finish_argWidth : (s.finish out).argWidth = s.argWidth := rfl
@[simp] theorem State.finish_argValue : (s.finish out).argValue = s.argValue := rfl
@[simp] theorem State.finish_argNib : (s.finish out).argNib = s.argNib := rfl
@[simp] theorem State.finish_running : (s.finish out).running = none := rfl

end

section
variable (x : Exn) (s : State)

@[simp] theorem State.raise_op : (s.raise x).op = s.op := rfl
@[simp] theorem State.raise_start : (s.raise x).start = s.start := rfl
@[simp] theorem State.raise_present : (s.raise x).present = s.present := rfl
@[simp] theorem State.raise_inp : (s.raise x).inp = s.inp := rfl
@[simp] theorem State.raise_out : (s.raise x).out = .empty := rfl
@[simp] theorem State.raise_done : (s.raise x).done = true := rfl
@[simp] theorem State.raise_res : (s.raise x).res = ResultRegs.cleared := rfl
@[simp] theorem State.raise_status : (s.raise x).status = x.err.code := rfl
@[simp] theorem State.raise_errInfo : (s.raise x).errInfo = x.info := rfl
@[simp] theorem State.raise_argOffset : (s.raise x).argOffset = s.argOffset := rfl
@[simp] theorem State.raise_argPad : (s.raise x).argPad = s.argPad := rfl
@[simp] theorem State.raise_argWidth : (s.raise x).argWidth = s.argWidth := rfl
@[simp] theorem State.raise_argValue : (s.raise x).argValue = s.argValue := rfl
@[simp] theorem State.raise_argNib : (s.raise x).argNib = s.argNib := rfl
@[simp] theorem State.raise_running : (s.raise x).running = none := rfl

end

section
variable (j : Nat) (s : State)

@[simp] theorem State.skipEnvelope_op : (s.skipEnvelope j).op = s.op := rfl
@[simp] theorem State.skipEnvelope_start : (s.skipEnvelope j).start = s.start := rfl
@[simp] theorem State.skipEnvelope_present : (s.skipEnvelope j).present = s.present := rfl
@[simp] theorem State.skipEnvelope_inp : (s.skipEnvelope j).inp = s.inp := rfl
@[simp] theorem State.skipEnvelope_out : (s.skipEnvelope j).out = s.out := rfl
@[simp] theorem State.skipEnvelope_done : (s.skipEnvelope j).done = s.done := rfl
@[simp] theorem State.skipEnvelope_res : (s.skipEnvelope j).res = s.res := rfl
@[simp] theorem State.skipEnvelope_status : (s.skipEnvelope j).status = s.status := rfl
@[simp] theorem State.skipEnvelope_errInfo : (s.skipEnvelope j).errInfo = s.errInfo := rfl
@[simp] theorem State.skipEnvelope_argOffset : (s.skipEnvelope j).argOffset = s.argOffset := rfl
@[simp] theorem State.skipEnvelope_argPad : (s.skipEnvelope j).argPad = s.argPad := rfl
@[simp] theorem State.skipEnvelope_argWidth : (s.skipEnvelope j).argWidth = s.argWidth := rfl
@[simp] theorem State.skipEnvelope_argValue : (s.skipEnvelope j).argValue = s.argValue := rfl
@[simp] theorem State.skipEnvelope_argNib : (s.skipEnvelope j).argNib = s.argNib := rfl
@[simp] theorem State.skipEnvelope_running : (s.skipEnvelope j).running = some (.parse (j + 1)) := rfl

end

section
variable (c : BitVec 4) (o : InStream) (s : State)

@[simp] theorem State.request_op : (s.request c o).op = c := rfl
@[simp] theorem State.request_start : (s.request c o).start = true := rfl
@[simp] theorem State.request_present : (s.request c o).present = o := rfl
@[simp] theorem State.request_inp : (s.request c o).inp = s.inp := rfl
@[simp] theorem State.request_out : (s.request c o).out = s.out := rfl
@[simp] theorem State.request_done : (s.request c o).done = s.done := rfl
@[simp] theorem State.request_res : (s.request c o).res = s.res := rfl
@[simp] theorem State.request_status : (s.request c o).status = s.status := rfl
@[simp] theorem State.request_errInfo : (s.request c o).errInfo = s.errInfo := rfl
@[simp] theorem State.request_argOffset : (s.request c o).argOffset = s.argOffset := rfl
@[simp] theorem State.request_argPad : (s.request c o).argPad = s.argPad := rfl
@[simp] theorem State.request_argWidth : (s.request c o).argWidth = s.argWidth := rfl
@[simp] theorem State.request_argValue : (s.request c o).argValue = s.argValue := rfl
@[simp] theorem State.request_argNib : (s.request c o).argNib = s.argNib := rfl
@[simp] theorem State.request_running : (s.request c o).running = s.running := rfl

end

section
variable (i : InStream) (s : State)

@[simp] theorem State.deliver_op : (s.deliver i).op = s.op := rfl
@[simp] theorem State.deliver_start : (s.deliver i).start = s.start := rfl
@[simp] theorem State.deliver_present : (s.deliver i).present = s.present := rfl
@[simp] theorem State.deliver_inp : (s.deliver i).inp = i := rfl
@[simp] theorem State.deliver_out : (s.deliver i).out = s.out := rfl
@[simp] theorem State.deliver_done : (s.deliver i).done = s.done := rfl
@[simp] theorem State.deliver_res : (s.deliver i).res = s.res := rfl
@[simp] theorem State.deliver_status : (s.deliver i).status = s.status := rfl
@[simp] theorem State.deliver_errInfo : (s.deliver i).errInfo = s.errInfo := rfl
@[simp] theorem State.deliver_argOffset : (s.deliver i).argOffset = s.argOffset := rfl
@[simp] theorem State.deliver_argPad : (s.deliver i).argPad = s.argPad := rfl
@[simp] theorem State.deliver_argWidth : (s.deliver i).argWidth = s.argWidth := rfl
@[simp] theorem State.deliver_argValue : (s.deliver i).argValue = s.argValue := rfl
@[simp] theorem State.deliver_argNib : (s.deliver i).argNib = s.argNib := rfl
@[simp] theorem State.deliver_running : (s.deliver i).running = s.running := rfl

end

section
variable (v : Option U32) (s : State)

@[simp] theorem State.writeArgOffset_op : (s.writeArgOffset v).op = s.op := rfl
@[simp] theorem State.writeArgOffset_start : (s.writeArgOffset v).start = s.start := rfl
@[simp] theorem State.writeArgOffset_present : (s.writeArgOffset v).present = s.present := rfl
@[simp] theorem State.writeArgOffset_inp : (s.writeArgOffset v).inp = s.inp := rfl
@[simp] theorem State.writeArgOffset_out : (s.writeArgOffset v).out = s.out := rfl
@[simp] theorem State.writeArgOffset_done : (s.writeArgOffset v).done = s.done := rfl
@[simp] theorem State.writeArgOffset_res : (s.writeArgOffset v).res = s.res := rfl
@[simp] theorem State.writeArgOffset_status : (s.writeArgOffset v).status = s.status := rfl
@[simp] theorem State.writeArgOffset_errInfo : (s.writeArgOffset v).errInfo = s.errInfo := rfl
@[simp] theorem State.writeArgOffset_argOffset : (s.writeArgOffset v).argOffset = v := rfl
@[simp] theorem State.writeArgOffset_argPad : (s.writeArgOffset v).argPad = s.argPad := rfl
@[simp] theorem State.writeArgOffset_argWidth : (s.writeArgOffset v).argWidth = s.argWidth := rfl
@[simp] theorem State.writeArgOffset_argValue : (s.writeArgOffset v).argValue = s.argValue := rfl
@[simp] theorem State.writeArgOffset_argNib : (s.writeArgOffset v).argNib = s.argNib := rfl
@[simp] theorem State.writeArgOffset_running : (s.writeArgOffset v).running = s.running := rfl

end

section
variable (v : Bool) (s : State)

@[simp] theorem State.writeArgPad_op : (s.writeArgPad v).op = s.op := rfl
@[simp] theorem State.writeArgPad_start : (s.writeArgPad v).start = s.start := rfl
@[simp] theorem State.writeArgPad_present : (s.writeArgPad v).present = s.present := rfl
@[simp] theorem State.writeArgPad_inp : (s.writeArgPad v).inp = s.inp := rfl
@[simp] theorem State.writeArgPad_out : (s.writeArgPad v).out = s.out := rfl
@[simp] theorem State.writeArgPad_done : (s.writeArgPad v).done = s.done := rfl
@[simp] theorem State.writeArgPad_res : (s.writeArgPad v).res = s.res := rfl
@[simp] theorem State.writeArgPad_status : (s.writeArgPad v).status = s.status := rfl
@[simp] theorem State.writeArgPad_errInfo : (s.writeArgPad v).errInfo = s.errInfo := rfl
@[simp] theorem State.writeArgPad_argOffset : (s.writeArgPad v).argOffset = s.argOffset := rfl
@[simp] theorem State.writeArgPad_argPad : (s.writeArgPad v).argPad = v := rfl
@[simp] theorem State.writeArgPad_argWidth : (s.writeArgPad v).argWidth = s.argWidth := rfl
@[simp] theorem State.writeArgPad_argValue : (s.writeArgPad v).argValue = s.argValue := rfl
@[simp] theorem State.writeArgPad_argNib : (s.writeArgPad v).argNib = s.argNib := rfl
@[simp] theorem State.writeArgPad_running : (s.writeArgPad v).running = s.running := rfl

end

section
variable (v : BitVec 3) (s : State)

@[simp] theorem State.writeArgWidth_op : (s.writeArgWidth v).op = s.op := rfl
@[simp] theorem State.writeArgWidth_start : (s.writeArgWidth v).start = s.start := rfl
@[simp] theorem State.writeArgWidth_present : (s.writeArgWidth v).present = s.present := rfl
@[simp] theorem State.writeArgWidth_inp : (s.writeArgWidth v).inp = s.inp := rfl
@[simp] theorem State.writeArgWidth_out : (s.writeArgWidth v).out = s.out := rfl
@[simp] theorem State.writeArgWidth_done : (s.writeArgWidth v).done = s.done := rfl
@[simp] theorem State.writeArgWidth_res : (s.writeArgWidth v).res = s.res := rfl
@[simp] theorem State.writeArgWidth_status : (s.writeArgWidth v).status = s.status := rfl
@[simp] theorem State.writeArgWidth_errInfo : (s.writeArgWidth v).errInfo = s.errInfo := rfl
@[simp] theorem State.writeArgWidth_argOffset : (s.writeArgWidth v).argOffset = s.argOffset := rfl
@[simp] theorem State.writeArgWidth_argPad : (s.writeArgWidth v).argPad = s.argPad := rfl
@[simp] theorem State.writeArgWidth_argWidth : (s.writeArgWidth v).argWidth = v := rfl
@[simp] theorem State.writeArgWidth_argValue : (s.writeArgWidth v).argValue = s.argValue := rfl
@[simp] theorem State.writeArgWidth_argNib : (s.writeArgWidth v).argNib = s.argNib := rfl
@[simp] theorem State.writeArgWidth_running : (s.writeArgWidth v).running = s.running := rfl

end

section
variable (v : U32) (s : State)

@[simp] theorem State.writeArgValue_op : (s.writeArgValue v).op = s.op := rfl
@[simp] theorem State.writeArgValue_start : (s.writeArgValue v).start = s.start := rfl
@[simp] theorem State.writeArgValue_present : (s.writeArgValue v).present = s.present := rfl
@[simp] theorem State.writeArgValue_inp : (s.writeArgValue v).inp = s.inp := rfl
@[simp] theorem State.writeArgValue_out : (s.writeArgValue v).out = s.out := rfl
@[simp] theorem State.writeArgValue_done : (s.writeArgValue v).done = s.done := rfl
@[simp] theorem State.writeArgValue_res : (s.writeArgValue v).res = s.res := rfl
@[simp] theorem State.writeArgValue_status : (s.writeArgValue v).status = s.status := rfl
@[simp] theorem State.writeArgValue_errInfo : (s.writeArgValue v).errInfo = s.errInfo := rfl
@[simp] theorem State.writeArgValue_argOffset : (s.writeArgValue v).argOffset = s.argOffset := rfl
@[simp] theorem State.writeArgValue_argPad : (s.writeArgValue v).argPad = s.argPad := rfl
@[simp] theorem State.writeArgValue_argWidth : (s.writeArgValue v).argWidth = s.argWidth := rfl
@[simp] theorem State.writeArgValue_argValue : (s.writeArgValue v).argValue = v := rfl
@[simp] theorem State.writeArgValue_argNib : (s.writeArgValue v).argNib = s.argNib := rfl
@[simp] theorem State.writeArgValue_running : (s.writeArgValue v).running = s.running := rfl

end

section
variable (v : Vector Byte 8) (s : State)

@[simp] theorem State.writeArgNib_op : (s.writeArgNib v).op = s.op := rfl
@[simp] theorem State.writeArgNib_start : (s.writeArgNib v).start = s.start := rfl
@[simp] theorem State.writeArgNib_present : (s.writeArgNib v).present = s.present := rfl
@[simp] theorem State.writeArgNib_inp : (s.writeArgNib v).inp = s.inp := rfl
@[simp] theorem State.writeArgNib_out : (s.writeArgNib v).out = s.out := rfl
@[simp] theorem State.writeArgNib_done : (s.writeArgNib v).done = s.done := rfl
@[simp] theorem State.writeArgNib_res : (s.writeArgNib v).res = s.res := rfl
@[simp] theorem State.writeArgNib_status : (s.writeArgNib v).status = s.status := rfl
@[simp] theorem State.writeArgNib_errInfo : (s.writeArgNib v).errInfo = s.errInfo := rfl
@[simp] theorem State.writeArgNib_argOffset : (s.writeArgNib v).argOffset = s.argOffset := rfl
@[simp] theorem State.writeArgNib_argPad : (s.writeArgNib v).argPad = s.argPad := rfl
@[simp] theorem State.writeArgNib_argWidth : (s.writeArgNib v).argWidth = s.argWidth := rfl
@[simp] theorem State.writeArgNib_argValue : (s.writeArgNib v).argValue = s.argValue := rfl
@[simp] theorem State.writeArgNib_argNib : (s.writeArgNib v).argNib = v := rfl
@[simp] theorem State.writeArgNib_running : (s.writeArgNib v).running = s.running := rfl

end

section
variable (l o : U32) (r : ResultRegs)

@[simp] theorem ResultRegs.setHeader_len : (r.setHeader l o).len = some l := rfl
@[simp] theorem ResultRegs.setHeader_off : (r.setHeader l o).off = some o := rfl
@[simp] theorem ResultRegs.setHeader_csum : (r.setHeader l o).csum = r.csum := rfl
@[simp] theorem ResultRegs.setHeader_hdrV : (r.setHeader l o).hdrV = true := rfl
@[simp] theorem ResultRegs.setHeader_trlV : (r.setHeader l o).trlV = r.trlV := rfl
@[simp] theorem ResultRegs.setHeader_acc : (r.setHeader l o).acc = r.acc := rfl

end

section
variable (c : U32) (r : ResultRegs)

@[simp] theorem ResultRegs.setTrailer_len : (r.setTrailer c).len = r.len := rfl
@[simp] theorem ResultRegs.setTrailer_off : (r.setTrailer c).off = r.off := rfl
@[simp] theorem ResultRegs.setTrailer_csum : (r.setTrailer c).csum = some c := rfl
@[simp] theorem ResultRegs.setTrailer_hdrV : (r.setTrailer c).hdrV = r.hdrV := rfl
@[simp] theorem ResultRegs.setTrailer_trlV : (r.setTrailer c).trlV = true := rfl
@[simp] theorem ResultRegs.setTrailer_acc : (r.setTrailer c).acc = r.acc := rfl

end

section
variable (d : Bytes) (r : ResultRegs)

@[simp] theorem ResultRegs.append_len : (r.append d).len = r.len := rfl
@[simp] theorem ResultRegs.append_off : (r.append d).off = r.off := rfl
@[simp] theorem ResultRegs.append_csum : (r.append d).csum = r.csum := rfl
@[simp] theorem ResultRegs.append_hdrV : (r.append d).hdrV = r.hdrV := rfl
@[simp] theorem ResultRegs.append_trlV : (r.append d).trlV = r.trlV := rfl
@[simp] theorem ResultRegs.append_acc : (r.append d).acc = r.acc ++ d := rfl

end

@[simp] theorem ResultRegs.cleared_len : ResultRegs.cleared.len = none := rfl
@[simp] theorem ResultRegs.cleared_off : ResultRegs.cleared.off = none := rfl
@[simp] theorem ResultRegs.cleared_csum : ResultRegs.cleared.csum = none := rfl
@[simp] theorem ResultRegs.cleared_hdrV : ResultRegs.cleared.hdrV = false := rfl
@[simp] theorem ResultRegs.cleared_trlV : ResultRegs.cleared.trlV = false := rfl
@[simp] theorem ResultRegs.cleared_acc : ResultRegs.cleared.acc = [] := rfl

/-- Ending an operation just started with its result completes it (R42). -/
theorem State.completed_finish (s : State) (out : OutStream) : Completed s (s.beginOp.finish out) out :=
  ⟨⟨rfl, rfl, rfl, rfl, ⟨rfl, rfl, rfl, rfl, rfl⟩, rfl, rfl, rfl⟩, rfl, rfl⟩

/-- Raising an error in an operation just started makes it fail (R240). -/
theorem State.failed_raise (s : State) (x : Exn) : Failed s (s.beginOp.raise x) x.err.code x.info :=
  ⟨⟨rfl, rfl, rfl, rfl, ⟨rfl, rfl, rfl, rfl, rfl⟩, rfl, rfl, rfl⟩, rfl, rfl⟩

/-- Raising an error in an operation that runs makes it fail (R240). -/
theorem State.failed_raise_running (s : State) (x : Exn) : Failed s (s.raise x) x.err.code x.info :=
  ⟨⟨rfl, rfl, rfl, rfl, ⟨rfl, rfl, rfl, rfl, rfl⟩, rfl, rfl, rfl⟩, rfl, rfl⟩

/-- No error code is the code of success (R231). -/
theorem Err.code_ne_ok (e : Err) : e.code ≠ statusOk := by
  cases e <;> decide

/-- No error code is a reserved one (R231). -/
theorem Err.code_le (e : Err) : e.code.toNat ≤ 6 := by
  cases e <;> decide

end Sys2Proof.Machine
end

