-- ==== Sys2Proof/Laws/Ops.lean ====
section
/-! SUPPORT. What each shared operation can do, said once. -/

namespace Sys2Proof.Machine

/-- Starting an operation on an idle block runs its body on the cleared state. -/
theorem State.startOp_idle {s : State} (body : State → Result) (h : s.running = none) :
    s.startOp body = body s.beginOp := by
  simp [State.startOp, h]

/-- A start while an operation runs has no step (R246). -/
theorem State.startOp_busy {s : State} (body : State → Result) (h : s.running ≠ none) :
    s.startOp body = .fault .startWhileRunning := by
  unfold State.startOp
  split
  · contradiction
  · rfl

/-- If starting an operation answers a next state, the block was idle and its body answered it. -/
theorem State.startOp_next {s t : State} {body : State → Result} (h : s.startOp body = .next t) :
    s.running = none ∧ body s.beginOp = .next t := by
  unfold State.startOp at h
  split at h
  · exact ⟨‹_›, h⟩
  · cases h

/-- If going on with an operand answers a next state, the operand was whole, or the operation is left running. -/
theorem State.withOperand_next {α : Type} {p : Presented α} {w : Running} {go : α → State} {s t : State}
    (h : s.withOperand p w go = .next t) :
    (∃ a, p = .whole a ∧ t = go a) ∨ (p = .pending ∧ t = { s with running := some w }) := by
  unfold State.withOperand at h
  split at h
  · exact .inl ⟨_, rfl, by simpa using h.symm⟩
  · exact .inr ⟨rfl, by simpa using h.symm⟩
  · cases h

@[simp] theorem State.withOperand_whole {α : Type} (a : α) (w : Running) (go : α → State) (s : State) :
    s.withOperand (.whole a) w go = .next (go a) := rfl

@[simp] theorem State.withOperand_pending {α : Type} (w : Running) (go : α → State) (s : State) :
    s.withOperand .pending w go = .next { s with running := some w } := rfl

/-- If a read answers a next state, the bytes were there, the operation ended in Truncated, or it waits. -/
theorem State.withRead_next {a : Arrival} {addr : Nat} {go : Bytes → Running} {s t : State}
    (h : s.withRead a addr go = .next t) :
    (∃ b, a = .got b ∧ t = { s with running := some (go b) }) ∨
    (a = .ended ∧ t = s.raise { err := .truncated, info := addr }) ∨ (a = .waiting ∧ t = s) := by
  unfold State.withRead at h
  split at h
  · exact .inl ⟨_, rfl, by simpa using h.symm⟩
  · exact .inr (.inl ⟨rfl, by simpa using h.symm⟩)
  · exact .inr (.inr ⟨rfl, by simpa using h.symm⟩)
  · cases h

/-- If an envelope command answers a next state, a `PARSE` runs, and the command had its effect or its error. -/
theorem State.envCommand_next {f : Nat → ResultRegs → Except Exn ResultRegs} {s t : State}
    (h : s.envCommand f = .next t) :
    ∃ j, s.running = some (.parse j) ∧
      ((∃ r, f j s.res = .ok r ∧ t = { s with res := r, running := some (.parse (j + 1)) }) ∨
        ∃ x, f j s.res = .error x ∧ t = s.raise x) := by
  unfold State.envCommand at h
  split at h
  · rename_i j hj
    refine ⟨j, hj, ?_⟩
    split at h
    · exact .inl ⟨_, ‹_›, by simpa using h.symm⟩
    · exact .inr ⟨_, ‹_›, by simpa using h.symm⟩
  · cases h

/-- An envelope command inside a `PARSE`. -/
theorem State.envCommand_parse {f : Nat → ResultRegs → Except Exn ResultRegs} {s : State} {j : Nat}
    (h : s.running = some (.parse j)) :
    s.envCommand f = match f j s.res with
      | .ok r => .next { s with res := r, running := some (.parse (j + 1)) }
      | .error x => .next (s.raise x) := by
  cases hf : f j s.res <;> simp [State.envCommand, h, hf]

/-- A block operand is whole exactly when its `eob` has come. -/
theorem InStream.asBlock_whole {i : InStream} {b : Bytes} : i.asBlock = .whole b ↔ i = .block b true := by
  unfold InStream.asBlock
  split <;> simp

/-- An envelope list is whole exactly when its `eos` has come. -/
theorem InStream.asEnvelopes_whole {i : InStream} {es : List Bytes} :
    i.asEnvelopes = .whole es ↔ i = .envelopes es true := by
  unfold InStream.asEnvelopes
  split <;> simp

/-- A bank operand is whole as soon as it is there. -/
theorem InStream.asBank_whole {i : InStream} {c : Bank} : i.asBank = .whole c ↔ i = .bank c := by
  unfold InStream.asBank
  split <;> simp

/-- `MemRead` succeeds exactly within the buffer, and gives `n` bytes (R14). -/
theorem memRead_ok {b r : Bytes} {a n : Nat} :
    memRead b a n = .ok r ↔ a + n ≤ b.length ∧ r = (b.drop a).take n := by
  unfold memRead sub
  split
  · simp; omega
  · simp [eq_comm]; omega

/-- The only error of `MemRead` is Truncated at its address (R14). -/
theorem memRead_error {b : Bytes} {x : Exn} {a n : Nat} :
    memRead b a n = .error x ↔ b.length < a + n ∧ x = { err := .truncated, info := a } := by
  unfold memRead
  split
  · simp [eq_comm]; omega
  · simp; omega

/-- What `MemRead` gives has the length asked for. -/
theorem memRead_length {b r : Bytes} {a n : Nat} (h : memRead b a n = .ok r) : r.length = n := by
  rw [memRead_ok] at h
  obtain ⟨h1, rfl⟩ := h
  simp
  omega

end Sys2Proof.Machine
end

