-- ==== Sys2Proof/Laws/Bytes.lean ====
section
/-! SUPPORT. How a byte sequence falls into slices, and induction along the slices. -/

namespace Sys2Proof.Machine

@[simp] theorem slices_nil {k : Nat} (hk : 0 < k) : slices k [] = [] := by
  have : (k - 1) / k = 0 := Nat.div_eq_of_lt (by omega)
  simp [slices, this]

/-- A short sequence is one slice. -/
theorem slices_short {k : Nat} {s : Bytes} (h0 : s ≠ []) (hk : s.length ≤ k) : slices k s = [s] := by
  have h1 : 0 < s.length := List.length_pos_iff.mpr h0
  have : (s.length + k - 1) / k = 1 := by
    rw [Nat.div_eq_iff (by omega)]
    omega
  simp [slices, this, List.take_of_length_le hk]

/-- The first slice of a sequence that begins with `k` bytes is those bytes. -/
theorem slices_append {k : Nat} {g s : Bytes} (hk : 0 < k) (hg : g.length = k) :
    slices k (g ++ s) = g :: slices k s := by
  have hn : ((g ++ s).length + k - 1) / k = (s.length + k - 1) / k + 1 := by
    rw [List.length_append, hg, ← Nat.add_div_right _ hk]
    congr 1
    omega
  simp only [slices, hn, List.range_succ_eq_map, List.map_cons, List.map_map]
  congr 1
  · simp [← hg]
  · refine List.map_congr_left fun j _ => ?_
    have : k * (j + 1) = g.length + k * j := by rw [hg]; ring
    have h0 : List.drop (g.length + k * j) g = [] := List.drop_eq_nil_of_le (by omega)
    simp [this, List.drop_append, h0]

/-- Induction along the slices of width `k`: nothing, one short slice, or a full slice and the rest. -/
theorem slices_induction {k : Nat} (hk : 0 < k) {P : Bytes → Prop} (nil : P [])
    (short : ∀ s, s ≠ [] → s.length < k → P s) (full : ∀ g s, g.length = k → P s → P (g ++ s)) (s : Bytes) :
    P s := by
  induction hn : s.length using Nat.strong_induction_on generalizing s with
  | _ n ih =>
    by_cases h0 : s = []
    · exact h0 ▸ nil
    · by_cases hlt : s.length < k
      · exact short s h0 hlt
      · have hg : (s.take k).length = k := by simp; omega
        have := full (s.take k) (s.drop k) hg (ih (s.drop k).length (by simp; omega) _ rfl)
        rwa [List.take_append_drop] at this

/-- How many slices there are: the ceiling of `len(s)/k` (R51). -/
@[simp] theorem slices_length (k : Nat) (s : Bytes) : (slices k s).length = (s.length + k - 1) / k := by
  simp [slices]

/-- Slice `j` is `s[k*j .. min(k*(j+1), len(s)))` (R51). -/
theorem slices_getElem? {k j : Nat} {s : Bytes} (h : j < (s.length + k - 1) / k) :
    (slices k s)[j]? = some ((s.drop (k * j)).take k) := by
  simp [slices, h]

/-- A slice is a piece of the sequence and no longer than `k`. -/
theorem slices_mem {k : Nat} {s c : Bytes} (h : c ∈ slices k s) :
    c.length ≤ k ∧ ∀ x ∈ c, x ∈ s := by
  simp only [slices, List.mem_map] at h
  obtain ⟨j, -, rfl⟩ := h
  exact ⟨by simp [List.length_take], fun x hx => List.mem_of_mem_drop (List.mem_of_mem_take hx)⟩

end Sys2Proof.Machine
end

