-- ==== Sys2Proof/Laws/BitPack.lean ====
section
/-! SUPPORT. What `PACK` and `UNPACK` do to one group or unit, and to a sequence that begins with a full one. -/

namespace Sys2Proof.Machine

@[simp] theorem pack_nil : pack [] = [] := by
  simp [pack, Config.group]

/-- A full group is packed on its own (R130). -/
theorem pack_append {g s : Bytes} (h : g.length = 7) : pack (g ++ s) = packGroup g ++ pack s := by
  simp [pack, Config.group, slices_append (by omega : 0 < 7) h]

/-- A short last group (R89). -/
theorem pack_short {s : Bytes} (h0 : s ≠ []) (h : s.length ≤ 7) : pack s = packGroup s := by
  simp [pack, Config.group, slices_short h0 h]

@[simp] theorem unpack_nil : unpack [] = [] := by
  simp [unpack, Config.unit]

/-- A full unit is unpacked on its own (R131). -/
theorem unpack_append {u s : Bytes} (h : u.length = 8) : unpack (u ++ s) = unpackUnit u ++ unpack s := by
  simp [unpack, Config.unit, slices_append (by omega : 0 < 8) h]

/-- A short last unit (R89, R136). -/
theorem unpack_short {s : Bytes} (h0 : s ≠ []) (h : s.length ≤ 8) : unpack s = unpackUnit s := by
  simp [unpack, Config.unit, slices_short h0 h]

@[simp] theorem packGroup_length (g : Bytes) : (packGroup g).length = g.length + 1 := by
  simp [packGroup]

@[simp] theorem unpackUnit_length (u : Bytes) : (unpackUnit u).length = u.length - 1 := by
  cases u <;> simp [unpackUnit]

/-- The flag fold, over the bytes from position `n` on, sets the bits of those bytes and keeps the others. -/
theorem packFlag_fold (g : Bytes) (n : Nat) (flag : Byte) (k : Nat) :
    ((g.zipIdx n).foldl (fun flag bk => if bk.1.getLsbD 7 then flag ||| (1#8 <<< bk.2) else flag) flag).getLsbD k
      = (flag.getLsbD k || (decide (k < 8) && decide (n ≤ k) && (byteAt g (k - n)).getLsbD 7)) := by
  induction g generalizing n flag with
  | nil => simp [byteAt]
  | cons b g ih =>
    simp only [List.zipIdx_cons, List.foldl_cons, ih]
    rcases Nat.lt_trichotomy k n with h | h | h
    · have h1 : ¬ n + 1 ≤ k := by omega
      have h2 : ¬ n ≤ k := by omega
      have h3 : k - n ≠ 0 ∨ k < n := .inr h
      split <;> simp [h1, h2, BitVec.getLsbD_or, BitVec.getLsbD_shiftLeft, h]
    · subst h
      by_cases h8 : k < 8
      · split <;> simp_all [byteAt]
      · split <;> simp_all [byteAt]
    · have h1 : n + 1 ≤ k := by omega
      have h2 : n ≤ k := by omega
      have h4 : k - n = k - (n + 1) + 1 := by omega
      split <;> simp [h1, h2, h4, byteAt, BitVec.getLsbD_or, BitVec.getLsbD_shiftLeft]

/-- Bit `k` of a group's flag byte is the high bit of its byte `k` (R88). -/
theorem packFlag_getLsbD (g : Bytes) (k : Nat) :
    (packFlag g).getLsbD k = (decide (k < 8) && (byteAt g k).getLsbD 7) := by
  have := packFlag_fold g 0 0#8 k
  simpa only [packFlag, BitVec.getLsbD_zero, Bool.false_or, Nat.zero_le, decide_true, Bool.and_true,
    Nat.sub_zero] using this

end Sys2Proof.Machine
end

