-- ==== Sys2Proof/Laws/Envelope.lean ====
section
/-! SUPPORT. What `classify` and the envelope constructors do, and where a list of envelopes can be cut. -/

namespace Sys2Proof.Machine

/-- `classify` of vendor header, command byte and payload goes by the command byte (R157). -/
theorem classify_envelope (c : Byte) (p : Bytes) :
    classify (envelope c p) =
      if c = 0x77 then .header p else if c = 0x79 then .data p else if c = 0x7A then .trailer p else .unknown c := by
  have h : ¬ p.length + 1 + 1 + 1 + 1 + 1 < 4 := by omega
  simp [classify, envelope, Config.vendorHeader, Config.cmdPos, Config.cmdHeader, Config.cmdData,
    Config.cmdTrailer, h]
  rfl

@[simp] theorem classify_header (p : Bytes) : classify (envelope Config.cmdHeader p) = .header p := by
  rw [classify_envelope]; rfl

@[simp] theorem classify_data (p : Bytes) : classify (envelope Config.cmdData p) = .data p := by
  rw [classify_envelope]; rfl

@[simp] theorem classify_trailer (p : Bytes) : classify (envelope Config.cmdTrailer p) = .trailer p := by
  rw [classify_envelope]; rfl

/-- A byte sequence is skipped, or it is vendor header, command byte and payload (R157). -/
theorem classify_cases (e : Bytes) :
    (classify e = .skip ∧ (e.length < 5 ∨ e.take 4 ≠ [0x00, 0x20, 0x29, 0x00])) ∨ ∃ c p, e = envelope c p := by
  by_cases h : e.length < 5 ∨ e.take 4 ≠ [0x00, 0x20, 0x29, 0x00]
  · refine .inl ⟨?_, h⟩
    unfold classify
    split
    · rfl
    · rename_i h2
      simp only [Config.vendorHeader] at h2
      have h4 : e.length = 4 := by rcases h with h | h <;> simp_all; omega
      rw [List.drop_eq_nil_of_le (by simp [Config.cmdPos, h4])]
  · push Not at h
    obtain ⟨h1, h2⟩ := h
    match e, h1, h2 with
    | a :: b :: c :: d :: k :: p, _, h2 =>
      simp at h2
      exact .inr ⟨k, p, by simp [envelope, Config.vendorHeader, h2]⟩

@[simp] theorem envelope_length (c : Byte) (p : Bytes) : (envelope c p).length = p.length + 5 := by
  simp [envelope, Config.vendorHeader]

@[simp] theorem nibenc_length (v : U32) : (nibenc v).length = 8 := by
  simp [nibenc]

/-- `PARSE` of a list cut in two: the second part goes on from what the first leaves (R156). -/
theorem parseFrom_append (a b : List Bytes) (j : Nat) (r : ResultRegs) :
    parseFrom (a ++ b) j r = match parseFrom a j r with
      | .ok r' => parseFrom b (j + a.length) r'
      | .error x => .error x := by
  induction a generalizing j r with
  | nil => rfl
  | cons e a ih =>
    simp only [List.cons_append, parseFrom, List.length_cons]
    cases parseStep e j r with
    | ok r' => simp only [ih]; rw [show j + 1 + a.length = j + (a.length + 1) by omega]
    | error x => rfl

end Sys2Proof.Machine
end

