-- ==== Sys2Proof/Laws/Exec.lean ====
section
/-! SUPPORT. Each operation on an idle block is its body on the cleared state; what a step and a number of steps
are. -/

namespace Sys2Proof.Machine

section
variable {s : State} (h : s.running = none)
include h

theorem exec_pack_idle : exec .pack s = packBody s.beginOp := State.startOp_idle _ h
theorem exec_unpack_idle : exec .unpack s = unpackBody s.beginOp := State.startOp_idle _ h
theorem exec_build_idle : exec .build s = buildBody s.buildOffset s.beginOp := State.startOp_idle _ h
theorem exec_parse_idle : exec .parse s = parseBody s.beginOp := State.startOp_idle _ h
theorem exec_bankSer_idle : exec .bankSer s = bankSerBody s.argPad s.beginOp := State.startOp_idle _ h
theorem exec_bankPar_idle : exec .bankPar s = bankParBody s.beginOp := State.startOp_idle _ h
theorem exec_swap_idle : exec .swap s = swapBody s.argWidth s.beginOp := State.startOp_idle _ h

end

@[simp] theorem State.settle_ok (out : OutStream) (s : State) : s.settle (.ok out) = s.finish out := rfl

@[simp] theorem State.settle_error (x : Exn) (s : State) : s.settle (.error x) = s.raise x := rfl

@[simp] theorem State.settleParse_ok (r : ResultRegs) (s : State) :
    s.settleParse (.ok r) = { s with res := r }.finish .empty := rfl

@[simp] theorem State.settleParse_error (x : Exn) (s : State) : s.settleParse (.error x) = s.raise x := rfl

/-- A step of a block that runs an operation and has no request: the sequencer resumes it. -/
theorem step_running {s : State} {r : Running} (h : s.running = some r) (hs : s.start = false) :
    step s = match resume r s with
      | .instr i => exec i s
      | .other r => r := by
  cases hr : resume r s <;> simp [step, fetch, h, hs, hr]

/-- An idle block without a request stays as it is. -/
theorem steps_idle {s : State} (n : Nat) (h : s.running = none) (hs : s.start = false) : steps n s = .next s := by
  induction n with
  | zero => rfl
  | succ n ih => simp [steps, step, fetch, h, hs, ih]

/-- One step, then the others. -/
theorem steps_cons {s t u : State} {n : Nat} (h : step s = .next t) (hn : steps n t = .next u) :
    steps (n + 1) s = .next u := by
  simp [steps, h, hn]

/-- Some steps, then the others. -/
theorem steps_add {s t : State} (m n : Nat) (h : steps m s = .next t) : steps (m + n) s = steps n t := by
  induction m generalizing s with
  | zero => cases h; simp
  | succ m ih =>
    rw [show m + 1 + n = (m + n) + 1 by omega]
    simp only [steps] at h ⊢
    cases hs : step s with
    | next u => rw [hs] at h; exact ih h
    | fault f => rw [hs] at h; cases h
    | refused f => rw [hs] at h; cases h

end Sys2Proof.Machine
end

