-- ==== Sys2Proof/Laws/PerInstr.lean ====
section
/-! SUPPORT. A family of statements, one for every instruction: the format of its word (30_encoding.md rules R80 and
R100). -/

namespace Sys2Proof.Laws.WordFormat

/-- The word of an operation is an operation-select code from 1 to 9; the word of an envelope command is the vendor
header, a command byte and its payload, of the length its format gives when the instruction is well-formed (R80,
R84, R86, R100). -/
def Statement (i : Instr) : Prop :=
  match encode i with
  | .op code => i.isEnv = false ∧ 1 ≤ code.toNat ∧ code.toNat ≤ 9
  | .envelope e =>
    i.isEnv = true ∧ e.take 4 = Config.vendorHeader ∧ 5 ≤ e.length ∧
      (i.wellFormed = true → e.length = 21 ∨ e.length = 13 ∨ e[4]? = some Config.cmdData)

theorem envHeader (payload : Bytes) : Statement (.envHeader payload) := by
  refine ⟨rfl, rfl, by simp, fun h => .inl ?_⟩
  simpa [Instr.wellFormed, Config.nibField] using h

theorem envData (payload : Bytes) : Statement (.envData payload) :=
  ⟨rfl, rfl, by simp, fun _ => .inr (.inr rfl)⟩

theorem envTrailer (payload : Bytes) : Statement (.envTrailer payload) := by
  refine ⟨rfl, rfl, by simp, fun h => .inr (.inl ?_)⟩
  simpa [Instr.wellFormed, Config.nibField] using h

theorem nibEnc : Statement .nibEnc := by simp [Statement, encode, Instr.isEnv]
theorem nibDec : Statement .nibDec := by simp [Statement, encode, Instr.isEnv]
theorem pack : Statement .pack := by simp [Statement, encode, Instr.isEnv]
theorem unpack : Statement .unpack := by simp [Statement, encode, Instr.isEnv]
theorem build : Statement .build := by simp [Statement, encode, Instr.isEnv]
theorem parse : Statement .parse := by simp [Statement, encode, Instr.isEnv]
theorem bankSer : Statement .bankSer := by simp [Statement, encode, Instr.isEnv]
theorem bankPar : Statement .bankPar := by simp [Statement, encode, Instr.isEnv]
theorem swap : Statement .swap := by simp [Statement, encode, Instr.isEnv]

end Sys2Proof.Laws.WordFormat
end

