-- ==== Sys2Proof/Tests/Slice0.lean ====
section
/-! SUPPORT. The model's own tests: ill-formed terms, written-out words, the spec's vectors (95_test_vectors.md V1 to
V7) one step each, and for every statement with hypotheses a witness that meets them. -/

namespace Sys2Proof.Tests

open Sys2Proof.Machine

/-! ### Small states and what a test looks at -/

/-- The block after reset, with an operand presented on `in`. -/
def idle (present : InStream) : State := { State.reset with present := present }

/-- The block after reset with an operation requested. -/
def asked (code : BitVec 4) (present : InStream) : State := State.reset.request code present

/-- A `PARSE` that runs, at envelope `j` of a list. -/
def parsing (j : Nat) (es : List Bytes) : State :=
  { State.reset with inp := .envelopes es true, running := some (.parse j) }

/-- One part of the next state, if there is one. -/
def observe {α : Type} (f : State → α) (r : Result) : Option α :=
  match r with
  | .next t => some (f t)
  | .fault _ => none
  | .refused _ => none

/-- `STATUS` and `ERRINFO`. -/
def codeAndInfo (s : State) : Nat × Nat := (s.status.toNat, s.errInfo)

/-- The scenario's record (S12). -/
def scenario : SampleRecord :=
  { channels := 1, bitDepth := 16, sampleRate := 48000, length := 4, data := [0x01, 0x02, 0x03, 0x04] }

/-- The scenario's bank, serialized without padding (V5). -/
def scenarioBytes : Bytes :=
  [0x01, 0x01, 0x10, 0x80, 0xBB, 0x00, 0x00, 0x04, 0x00, 0x00, 0x00, 0x01, 0x02, 0x03, 0x04]

/-- The two-record bank `c2` (V5). -/
def bankTwo (count : Byte) : Bank :=
  { count := count
    records :=
      [{ channels := 2, bitDepth := 24, sampleRate := 44100, length := 6, data := [0xAA, 0xBB, 0xCC, 0xDD, 0xEE, 0xFF] },
        { channels := 1, bitDepth := 8, sampleRate := 8000, length := 0, data := [] }] }

/-- `c2` serialized (V5). -/
def bankTwoBytes (count : Byte) : Bytes :=
  [count, 0x02, 0x18, 0x44, 0xAC, 0x00, 0x00, 0x06, 0x00, 0x00, 0x00, 0xAA, 0xBB, 0xCC, 0xDD, 0xEE, 0xFF,
    0x01, 0x08, 0x40, 0x1F, 0x00, 0x00, 0x00, 0x00, 0x00, 0x00]

/-- A record whose `length` is not the length of its data (V5). -/
def badRecord : SampleRecord :=
  { channels := 1, bitDepth := 8, sampleRate := 8000, length := 3, data := [0x01, 0x02] }

/-! ### WellFormed: an ill-formed term for each check -/

theorem test_illformed_header_short : (Instr.envHeader (List.replicate 15 0)).wellFormed = false := by decide

theorem test_illformed_header_long : (Instr.envHeader (List.replicate 17 0)).wellFormed = false := by decide

theorem test_wellformed_header : (Instr.envHeader (List.replicate 16 0)).wellFormed = true := by decide

theorem test_illformed_trailer_short : (Instr.envTrailer (List.replicate 7 0)).wellFormed = false := by decide

theorem test_illformed_trailer_long : (Instr.envTrailer (List.replicate 9 0)).wellFormed = false := by decide

/-! ### Words written out from R80, R83, R100 and R115 -/

theorem test_decode_nibEnc : decode (.op 0b0001) = .ok .nibEnc := by decide
theorem test_decode_nibDec : decode (.op 0b0010) = .ok .nibDec := by decide
theorem test_decode_pack : decode (.op 0b0011) = .ok .pack := by decide
theorem test_decode_unpack : decode (.op 0b0100) = .ok .unpack := by decide
theorem test_decode_build : decode (.op 0b0101) = .ok .build := by decide
theorem test_decode_parse : decode (.op 0b0110) = .ok .parse := by decide
theorem test_decode_bankSer : decode (.op 0b0111) = .ok .bankSer := by decide
theorem test_decode_bankPar : decode (.op 0b1000) = .ok .bankPar := by decide
theorem test_decode_swap : decode (.op 0b1001) = .ok .swap := by decide

theorem test_decode_reserved_low : decode (.op 0b0000) = .error (.reservedOp 0) := by decide

theorem test_decode_reserved_high : ∀ c : BitVec 4, 0xA ≤ c.toNat → decode (.op c) = .error (.reservedOp c) := by
  decide

/-- V4's HEADER: length 1, offset 0x12345678. -/
theorem test_decode_envHeader :
    decode (.envelope [0x00, 0x20, 0x29, 0x00, 0x77, 0, 0, 0, 0, 0, 0, 0, 1, 1, 2, 3, 4, 5, 6, 7, 8])
      = .ok (.envHeader [0, 0, 0, 0, 0, 0, 0, 1, 1, 2, 3, 4, 5, 6, 7, 8]) := by decide

/-- V4's DATA. -/
theorem test_decode_envData :
    decode (.envelope [0x00, 0x20, 0x29, 0x00, 0x79, 0x01, 0x00]) = .ok (.envData [0x01, 0x00]) := by decide

/-- P2's TRAILER. -/
theorem test_decode_envTrailer :
    decode (.envelope [0x00, 0x20, 0x29, 0x00, 0x7A, 0x0C, 0x0A, 0x0F, 0x0E, 0x0F, 0x00, 0x00, 0x0D])
      = .ok (.envTrailer [0x0C, 0x0A, 0x0F, 0x0E, 0x0F, 0x00, 0x00, 0x0D]) := by decide

/-- V3's rows that are no command. -/
theorem test_decode_skipped :
    decode (.envelope []) = .error .skipped ∧ decode (.envelope [0x00, 0x20, 0x29]) = .error .skipped ∧
    decode (.envelope [0x00, 0x20, 0x29, 0x00]) = .error .skipped ∧
    decode (.envelope [0x00, 0x20, 0x29, 0x01, 0x79, 0x00, 0x55]) = .error .skipped ∧
    decode (.envelope [0xF0, 0x7E, 0x7F, 0x06, 0x01, 0xF7]) = .error .skipped ∧
    decode (.envelope [0x00, 0x20, 0x29, 0x00, 0x00]) = .error (.unknownCommand 0x00) := by decide

/-- The ENV rows of the opcode table (R115). -/
theorem test_table_rows :
    decodeTableWord 40 0x0020290077 = some (.envHeader (List.replicate 16 0)) ∧
    decodeTableWord 40 0x0020290079 = some (.envData []) ∧
    decodeTableWord 40 0x002029007A = some (.envTrailer (List.replicate 8 0)) ∧
    decodeTableWord 8 0x9 = some .swap ∧ decodeTableWord 8 0xA = none := by decide

/-! ### One step on the spec's vectors -/

/-- V1: `NIB.ENC 0xDEADBEEF`. -/
theorem test_nibEnc :
    observe State.out (exec .nibEnc { State.reset with argValue := 0xDEADBEEF })
      = some (.block [0x0D, 0x0E, 0x0A, 0x0D, 0x0B, 0x0E, 0x0E, 0x0F]) := by decide

/-- V1: the high nibbles of `ARG_NIB` are ignored. -/
theorem test_nibDec :
    observe State.out
        (exec .nibDec { State.reset with argNib := #v[0xF1, 0x22, 0x83, 0x04, 0x75, 0x06, 0xA7, 0xF8] })
      = some (.value 0x12345678) := by decide

/-- V2: a full group, then a group of two. -/
theorem test_pack :
    observe State.out
        (exec .pack (idle (.block [0xF0, 0xF7, 0x80, 0x7F, 0xFF, 0x00, 0x01, 0x02, 0x90] true)))
      = some (.block [0x17, 0x70, 0x77, 0x00, 0x7F, 0x7F, 0x00, 0x01, 0x02, 0x02, 0x10]) := by decide

/-- V2: nothing packs to nothing, without a flag byte. -/
theorem test_pack_empty : observe State.out (exec .pack (idle (.block [] true))) = some (.block []) := by decide

/-- V2: the second unit is a lone flag byte. -/
theorem test_unpack_lone_flag :
    observe State.out
        (exec .unpack (idle (.block [0x01, 0x10, 0x20, 0x30, 0x40, 0x50, 0x60, 0x70, 0x02] true)))
      = some (.block [0x90, 0x20, 0x30, 0x40, 0x50, 0x60, 0x70]) := by decide

/-- V2: flag bits without data bytes, and a data byte that keeps its own bit 7. -/
theorem test_unpack_noncanonical : unpack [0x7F, 0x01] = [0x81] ∧ unpack [0x00, 0x81] = [0x81] := by decide

/-- V4: `BUILD 80, offset=0x12345678`, for a checksum that P2 gives the nibbles of. -/
theorem test_build :
    build (fun _ => 0xCAFEF00D) 0x12345678 [0x80] = .ok
      [[0x00, 0x20, 0x29, 0x00, 0x77, 0, 0, 0, 0, 0, 0, 0, 1, 1, 2, 3, 4, 5, 6, 7, 8],
        [0x00, 0x20, 0x29, 0x00, 0x79, 0x01, 0x00],
        [0x00, 0x20, 0x29, 0x00, 0x7A, 0x0C, 0x0A, 0x0F, 0x0E, 0x0F, 0x00, 0x00, 0x0D]] := by decide

/-- R153: an empty buffer gives two envelopes and no DATA. -/
theorem test_build_empty :
    (build (fun _ => 0) 0 []).map (List.map List.length) = .ok [21, 13] := by decide

/-- P2, envelopes 0 to 9: foreign traffic, two HEADERs, DATA after the TRAILER. -/
theorem test_parse :
    observe State.res (exec .parse (idle (.envelopes
        [[0xF0, 0x7E, 0x7F, 0x06, 0x01, 0xF7],
          [0x00, 0x20, 0x29, 0x00, 0x79, 0x01, 0x11],
          [0x00, 0x20, 0x29, 0x00, 0x77, 0, 0, 0, 0, 0, 0, 6, 3, 0, 0, 0, 0, 0, 0, 0, 1],
          [0x00, 0x20, 0x29, 0x00, 0x78, 0x01, 0x02, 0x03],
          [0x00, 0x20, 0x29, 0x00],
          [0x00, 0x20, 0x29, 0x01, 0x79, 0x00, 0x55],
          [0x00, 0x20, 0x29, 0x00, 0x77, 0, 0, 0, 0, 0, 0, 0, 3, 0, 0, 0, 0, 0, 0, 2, 0],
          [0x00, 0x20, 0x29, 0x00, 0x79, 0x02, 0x22, 0x33],
          [0x00, 0x20, 0x29, 0x00, 0x7A, 0x0C, 0x0A, 0x0F, 0x0E, 0x0F, 0x00, 0x00, 0x0D],
          [0x00, 0x20, 0x29, 0x00, 0x79, 0x00, 0x44]] true)))
      = some
        { len := some 3, off := some 0x20, csum := some 0xCAFEF00D, hdrV := true, trlV := true,
          acc := [0x91, 0x22, 0xB3, 0x44] } := by decide

/-- V4: a TRAILER payload of seven bytes; nothing that came before it can be read. -/
theorem test_parse_malformed :
    observe (fun t => (codeAndInfo t, t.res)) (exec .parse (idle (.envelopes
        [[0x00, 0x20, 0x29, 0x00, 0x77, 0, 0, 0, 0, 0, 0, 0, 1, 1, 2, 3, 4, 5, 6, 7, 8],
          [0x00, 0x20, 0x29, 0x00, 0x79, 0x01, 0x00],
          [0x00, 0x20, 0x29, 0x00, 0x7A, 0x03, 0x0F, 0x0B, 0x0A, 0x06, 0x0C, 0x0A]] true)))
      = some ((3, 2), ResultRegs.cleared) := by decide

/-- R160's example: length 600, offset 0x00100000. -/
theorem test_envHeader :
    observe State.res (exec (.envHeader [0, 0, 0, 0, 0, 2, 5, 8, 0, 0, 1, 0, 0, 0, 0, 0]) (parsing 0 []))
      = some
        { len := some 600, off := some 0x00100000, csum := none, hdrV := true, trlV := false, acc := [] } := by
  decide

/-- V4: a HEADER payload of seventeen bytes. -/
theorem test_envHeader_long :
    observe codeAndInfo (exec (.envHeader (List.replicate 17 0)) (parsing 5 [])) = some (3, 5) := by decide

/-- R161's example: payload `01 00` appends `80`. -/
theorem test_envData :
    observe (fun t => (t.res.acc, t.running)) (exec (.envData [0x01, 0x00]) (parsing 7 []))
      = some ([0x80], some (.parse 8)) := by decide

/-- R162's example: 0xDEADBEEF. -/
theorem test_envTrailer :
    observe State.res (exec (.envTrailer [0x0D, 0x0E, 0x0A, 0x0D, 0x0B, 0x0E, 0x0E, 0x0F]) (parsing 1 []))
      = some
        { len := none, off := none, csum := some 0xDEADBEEF, hdrV := false, trlV := true, acc := [] } := by decide

/-- V5: `c2` with capacities 32 and 26. -/
theorem test_bankSer :
    bankSer 32 (bankTwo 2) true = .ok (bankTwoBytes 2 ++ [0, 0, 0, 0, 0]) ∧
    bankSer 26 (bankTwo 2) false = .error { err := .overCapacity, info := 27 } := by decide

/-- V5: the precondition wins over the capacity, and names the offender. -/
theorem test_bankSer_precondition :
    bankSer 8 { count := 1, records := [scenario, badRecord] } true
      = .error { err := .precondition, info := 1 } := by decide

/-- V5: the scenario's bank with bytes after it. -/
theorem test_bankPar :
    observe State.out (exec .bankPar (idle (.block (scenarioBytes ++ [0, 0, 0]) true)))
      = some (.bank { count := 1, records := [scenario] }) := by decide

/-- V5: a huge `length` does not wrap. -/
theorem test_bankPar_huge :
    observe codeAndInfo (exec .bankPar (idle (.block
        [0x01, 0x01, 0x10, 0x80, 0xBB, 0x00, 0x00, 0xFF, 0xFF, 0xFF, 0xFF, 0x01, 0x02] true)))
      = some (1, 11) := by decide

/-- V6: three-byte words; the seventh byte is dropped. -/
theorem test_swap :
    observe State.out
        (exec .swap { idle (.block [0x01, 0x02, 0x03, 0x04, 0x05, 0x06, 0x07] true) with argWidth := 3 })
      = some (.block [0x03, 0x02, 0x01, 0x06, 0x05, 0x04]) := by decide

/-- V6: width 5, with no operand on `in`. -/
theorem test_swap_width :
    observe codeAndInfo (exec .swap { State.reset with argWidth := 5 }) = some (4, 5) := by decide

/-- V7: every reserved code. -/
theorem test_illegalOp :
    observe codeAndInfo (step (asked 0x0 .empty)) = some (6, 0) ∧
    observe codeAndInfo (step (asked 0xA .empty)) = some (6, 10) ∧
    observe codeAndInfo (step (asked 0xF .empty)) = some (6, 15) := by decide

/-- The step runs a placed word: `SWAP` after reset has width 0. -/
theorem test_withFetchWord : observe codeAndInfo (step (State.reset.withFetchWord 8 0x9)) = some (4, 0) := by
  decide

/-! ### Witnesses: what each statement assumes can hold -/

theorem witness_EncodeOfDecodeIsIdentity :
    decode (.op 0x9) = .ok .swap ∧
      decode (.envelope [0x00, 0x20, 0x29, 0x00, 0x79]) = .ok (.envData []) := by decide

theorem witness_TableKeysSelectTheEnvelopeCommands :
    (5 ≤ [0x00, 0x20, 0x29, 0x00, 0x77#8].length ∧ envelopeKey [0x00, 0x20, 0x29, 0x00, 0x77] = 0x0020290077) ∧
    (5 ≤ [0x00, 0x20, 0x29, 0x00, 0x78#8].length ∧ envelopeKey [0x00, 0x20, 0x29, 0x00, 0x78] ≠ 0x0020290077 ∧
      envelopeKey [0x00, 0x20, 0x29, 0x00, 0x78] ≠ 0x0020290079 ∧
      envelopeKey [0x00, 0x20, 0x29, 0x00, 0x78] ≠ 0x002029007A) := by decide

theorem witness_EveryStepKeepsTheInvariant : ∃ s t : State, s.Inv ∧ step s = .next t := by
  refine ⟨asked 0x1 .empty, _, ?_, rfl⟩
  constructor <;> simp [asked, State.request, State.reset, ResultRegs.cleared]

theorem witness_StepRunsTheDecodedInstruction :
    ((asked 0x3 .empty).running = none ∧ (asked 0x3 .empty).start = true ∧
      decode (.op (asked 0x3 .empty).op) = .ok .pack) ∧
    (∃ (s : State) (i : Instr) (es : List Bytes) (e : Bytes),
      s.running = some (.parse 0) ∧ s.start = false ∧ s.inp = .envelopes es true ∧ es[0]? = some e ∧
        decode (.envelope e) = .ok i) :=
  ⟨by decide, parsing 0 [[0x00, 0x20, 0x29, 0x00, 0x79]], .envData [], _, _, rfl, rfl, rfl, rfl, by decide⟩

theorem witness_ReservedCodeEndsInIllegalOp :
    ∀ c : BitVec 4, (c = 0x0 ∨ c = 0xA ∨ c = 0xF) →
      (asked c .empty).running = none ∧ (asked c .empty).start = true ∧
        ((asked c .empty).op = 0x0 ∨ 0xA ≤ (asked c .empty).op.toNat) := by decide

theorem witness_BlockWaitsWithoutInput :
    (State.reset.running = none ∧ State.reset.start = false) ∧
    (∃ (s : State) (es : List Bytes), s.running = some (.parse es.length) ∧ s.start = false ∧
      s.inp = .envelopes es false) :=
  ⟨by decide, { parsing 1 [] with inp := .envelopes [[]] false }, [[]], rfl, rfl, rfl⟩

theorem witness_WhatHasNoStep :
    (∃ s : State, s.running ≠ none ∧ s.start = true) ∧
    (∃ (s : State) (i : Instr), s.running ≠ none ∧ i.isEnv = false) ∧
    (∃ s : State, s.running = none ∧ s.present = .envelopes [] true ∧ 1 ≤ s.argWidth.toNat ∧ s.argWidth.toNat ≤ 4) ∧
    (∃ s : State, s.running = none ∧ s.present = .block [] true) ∧
    (∃ (s : State) (i : Instr), i.isEnv = true ∧ ∀ j, s.running ≠ some (.parse j)) :=
  ⟨⟨{ parsing 0 [] with start := true }, by decide⟩, ⟨parsing 0 [], .pack, by decide⟩,
    ⟨{ idle (.envelopes [] true) with argWidth := 4 }, by decide⟩, ⟨idle (.block [] true), by decide⟩,
    State.reset, .envData [], rfl, fun _ h => by cases h⟩

theorem witness_SkippedEnvelopeOnlyAdvancesThePosition :
    ∃ (s : State) (es : List Bytes) (e : Bytes), s.running = some (.parse 0) ∧ s.start = false ∧
      s.inp = .envelopes es true ∧ es[0]? = some e ∧ ignored e = true :=
  ⟨parsing 0 [[0x00, 0x20, 0x29, 0x00, 0x78]], _, _, rfl, rfl, rfl, rfl, by decide⟩

theorem witness_NibEncGivesTheNibbles : State.reset.running = none := rfl

theorem witness_NibDecFoldsTheNibbles : State.reset.running = none := rfl

theorem witness_NibbleCodecLaws :
    (nibenc 0xFFFFFFFF).length = 8 ∧ ([0xF1, 0x22, 0x83, 0x04, 0x75, 0x06, 0xA7, 0xF8] : Bytes).length = 8 ∧
      nibenc 7 = nibenc 7 := by decide

theorem witness_PackGivesThePackedGroups :
    (idle (.block [0x80] true)).running = none ∧ (idle (.block [0x80] true)).present = .block [0x80] true ∧
      7 * 0 < [0x80#8].length := by decide

theorem witness_UnpackMergesTheFlagBits :
    (idle (.block [0x01, 0x00] true)).running = none ∧
      (idle (.block [0x01, 0x00] true)).present = .block [0x01, 0x00] true ∧
      ([0x01, 0x00] : Bytes)[8 * 0 + 1 + 0]? = some 0x00 := by decide

theorem witness_PackLengthLaw : 6 < 7 := by decide

theorem witness_CanonicalPackedSequences : Canonical [] ∧ Canonical ([0x01, 0x00] : Bytes) := by
  refine ⟨by simp [Canonical], by decide, ?_, ?_, ?_⟩
  · intro i x h0 h
    match i, h0, h with
    | 1, _, h => cases h; decide
    | n + 2, _, h => simp at h
  · intro i x h0 h
    match i, h0, h with
    | 0, _, h => cases h; decide
    | n + 2, _, h => simp at h
  · intro i x k h0 h h2 h6
    match i, h0, h, h2 with
    | 0, _, h, h2 =>
      cases h
      have h1 : 1 ≤ k := by simp at h2; omega
      have key : ∀ k, k ≤ 6 → 1 ≤ k → (0x01#8).getLsbD k = false := by decide
      exact key k h6 h1
    | n + 2, _, h, _ => simp at h

theorem witness_NonCanonicalInputToUnpack :
    (([] : Bytes).length % 8 = 0) ∧
    (∃ (p ds q : Bytes) (f g : Byte), p.length % 8 = 0 ∧ ds.length ≤ 7 ∧ (ds.length = 7 ∨ q = []) ∧
      (∀ k, k < ds.length → f.getLsbD k = g.getLsbD k) ∧ f ≠ g) ∧
    (∃ (p : Bytes) (x : Byte), 1 % 8 ≠ 0 ∧ p[1]? = some x ∧ x.getLsbD 7 = true) :=
  ⟨rfl, ⟨[], [0x01], [], 0x7F, 0xFF, by decide⟩, [0x00, 0x81], 0x81, by decide⟩

theorem witness_PackingConcatenationLaws :
    ([1, 2, 3, 4, 5, 6, 7] : Bytes).length % 7 = 0 ∧ ([0, 1, 2, 3, 4, 5, 6, 7] : Bytes).length % 8 = 0 := by decide

/-- Both clauses of `BUILD`: the longest buffer it takes and the shortest it refuses. -/
theorem witness_BuildGivesTheTransfer :
    (∃ (s : State) (b : Bytes), s.running = none ∧ s.present = .block b true ∧ b.length ≤ 2 ^ 32 - 1) ∧
    (∃ (s : State) (b : Bytes), s.running = none ∧ s.present = .block b true ∧ b.length > 2 ^ 32 - 1) := by
  have long (n : Nat) : ∃ b : Bytes, b.length = n := ⟨List.replicate n 0, List.length_replicate⟩
  obtain ⟨b, hb⟩ := long (2 ^ 32 - 1)
  obtain ⟨c, hc⟩ := long (2 ^ 32)
  exact ⟨⟨idle (.block b true), b, rfl, rfl, by omega⟩, idle (.block c true), c, rfl, rfl, by omega⟩

theorem witness_ParseGivesWhatTheEnvelopesHold :
    ∃ (s : State) (es : List Bytes), s.running = none ∧ s.present = .envelopes es true ∧ Acceptable es ∧
      received es = [0x80] :=
  ⟨idle (.envelopes [envelope Config.cmdTrailer (List.replicate 8 0), envelope Config.cmdData [0x01, 0x00],
      envelope Config.cmdHeader (List.replicate 16 0)] true), _, rfl, rfl, by unfold Acceptable; decide, by decide⟩

/-- A payload that unpacks to more than `ACC` holds. -/
theorem long_payload : ∃ p : Bytes, (unpack p).length > 4294967295 := by
  have key (n : Nat) : (unpack (List.replicate (8 * n) 0)).length = 7 * n := by
    induction n with
    | zero => simp
    | succ n ih =>
      have h : List.replicate (8 * (n + 1)) (0 : Byte) = List.replicate 8 0 ++ List.replicate (8 * n) 0 := by
        rw [← List.replicate_add]; congr 1; omega
      rw [h, unpack_append (by simp), List.length_append, ih, unpackUnit_length, List.length_replicate]
      omega
  have h := key 613566757
  exact ⟨_, by rw [h]; decide⟩

/-- The three ways a list ends early. -/
theorem witness_ParseEndsAtTheFirstError :
    (∃ (s : State) (post : List Bytes) (e p : Bytes), s.running = none ∧
      s.present = .envelopes ([] ++ e :: post) true ∧ Acceptable [] ∧ classify e = .header p ∧ p.length ≠ 16) ∧
    (∃ (s : State) (post : List Bytes) (e p : Bytes), s.running = none ∧
      s.present = .envelopes ([] ++ e :: post) true ∧ Acceptable [] ∧ classify e = .trailer p ∧ p.length ≠ 8) ∧
    (∃ (s : State) (post : List Bytes) (e p : Bytes), s.running = none ∧
      s.present = .envelopes ([] ++ e :: post) true ∧ Acceptable [] ∧ classify e = .data p ∧
        (received []).length + (unpack p).length > 4294967295) := by
  obtain ⟨p, hp⟩ := long_payload
  have ha : Acceptable [] := by unfold Acceptable; decide
  refine ⟨⟨idle (.envelopes [envelope Config.cmdHeader []] true), [], _, [], rfl, rfl, ha, by decide, by decide⟩,
    ⟨idle (.envelopes [envelope Config.cmdTrailer []] true), [], _, [], rfl, rfl, ha, by decide, by decide⟩,
    idle (.envelopes [envelope Config.cmdData p] true), [], _, p, rfl, rfl, ha, rfl, ?_⟩
  have : (received []).length = 0 := by decide
  omega

theorem witness_EnvHeaderSetsLengthAndOffset :
    (parsing 3 []).running = some (.parse 3) ∧ (List.replicate 16 (0 : Byte)).length = 16 ∧
      (List.replicate 17 (0 : Byte)).length ≠ 16 := by decide

theorem witness_EnvDataAppendsTheUnpackedPayload :
    (∃ (s : State) (p : Bytes), s.running = some (.parse 0) ∧ s.res.acc.length + (unpack p).length ≤ 4294967295) ∧
    (∃ (s : State) (p : Bytes), s.running = some (.parse 0) ∧ s.res.acc.length + (unpack p).length > 4294967295) := by
  obtain ⟨p, hp⟩ := long_payload
  exact ⟨⟨parsing 0 [], [0x01, 0x00], rfl, by decide⟩, parsing 0 [], p, rfl, Nat.lt_of_lt_of_le hp (Nat.le_add_left ..)⟩

theorem witness_EnvTrailerSetsTheChecksum :
    (parsing 3 []).running = some (.parse 3) ∧ (List.replicate 8 (0 : Byte)).length = 8 ∧
      (List.replicate 7 (0 : Byte)).length ≠ 8 := by decide

theorem witness_AssemblerRoundTrip :
    (idle (.block [0x80] true)).running = none ∧ (idle (.block [0x80] true)).present = .block [0x80] true ∧
      ([0x80] : Bytes).length ≤ 4294967295 := by decide

/-- A transfer whose one DATA envelope arrives twice. -/
theorem witness_RoundTripIsRobustToForeignTraffic :
    ∃ (crc : Bytes → U32) (off : U32) (b h t : Bytes) (ds ds' : List Bytes), b.length ≤ 4294967295 ∧
      buildEnvelopes crc off b = h :: ds ++ [t] ∧ (∀ d ∈ ds', d ∈ ds) ∧ (received ds').length ≤ 4294967295 ∧
      ds' ≠ ds :=
  ⟨fun _ => 0, 0, [0x80], headerEnvelope 1 0, trailerEnvelope 0, [dataEnvelope [0x80]],
    [dataEnvelope [0x80], dataEnvelope [0x80]], by decide, by decide, by simp, by decide, by simp⟩

/-- The smallest bank fits every capacity, and either padding switch can be chosen. -/
theorem witness_BankSerLaysOutTheBank : ∀ pad : Bool, ∃ (s : State) (c : Bank), s.running = none ∧
    s.present = .bank c ∧ (∀ r ∈ c.records, WfRecord r) ∧ bankSize c ≤ s.cfgCapacity ∧ s.argPad = pad :=
  fun pad => ⟨{ idle (.bank { count := 0, records := [] }) with argPad := pad }, _, rfl, rfl, by simp,
    Nat.le_add_left 1 _, rfl⟩

theorem witness_BankSerRefusesAnIllFormedRecord :
    ∃ (s : State) (pre post : List SampleRecord) (r : SampleRecord), s.running = none ∧
      s.present = .bank { count := 2, records := pre ++ r :: post } ∧ (∀ q ∈ pre, WfRecord q) ∧ ¬ WfRecord r :=
  ⟨idle (.bank { count := 2, records := [scenario, badRecord] }), [scenario], [], badRecord, rfl, rfl, by decide,
    by decide⟩

/-- A bank that no capacity holds. -/
theorem witness_BankSerRefusesAnOversizedBank : ∃ (s : State) (c : Bank), s.running = none ∧
    s.present = .bank c ∧ (∀ r ∈ c.records, WfRecord r) ∧ bankSize c > s.cfgCapacity := by
  have long (n : Nat) : ∃ b : Bytes, b.length = n := ⟨List.replicate n 0, List.length_replicate⟩
  obtain ⟨b, hb⟩ := long 4294967295
  refine ⟨idle (.bank { count := 1, records := [{ scenario with length := 4294967295, data := b }] }), _, rfl, rfl,
    by simp [WfRecord, hb], ?_⟩
  have hc : Config.capacityLessOne.val < 4294967295 := Config.capacityLessOne.isLt
  simp only [bankSize, recordsSize, State.cfgCapacity, Config.capacity, List.map_cons, List.map_nil, List.sum_cons,
    List.sum_nil, hb]
  omega

theorem witness_BankParReadsTheBank : ∃ (s : State) (c : Bank) (tail : Bytes), s.running = none ∧ WfBank c ∧
    s.present = .block (bankLayout c ++ tail) true ∧ tail ≠ [] :=
  ⟨idle (.block (bankLayout (bankTwo 2) ++ [0x09]) true), bankTwo 2, [0x09], rfl, by decide, rfl, by decide⟩

/-- The three places where a bank can end too early. -/
theorem witness_BankParTruncated :
    (∃ (s : State) (n : Byte) (rs : List SampleRecord), s.running = none ∧ (∀ r ∈ rs, WfRecord r) ∧
      rs.length < n.toNat ∧ s.present = .block [] true) ∧
    (∃ (s : State) (n : Byte) (rs : List SampleRecord) (rest : Bytes), s.running = none ∧
      (∀ r ∈ rs, WfRecord r) ∧ rs.length < n.toNat ∧
      s.present = .block (bankLayout { count := n, records := rs } ++ rest) true ∧ rest.length = 9) ∧
    (∃ (s : State) (n : Byte) (rs : List SampleRecord) (r : SampleRecord), s.running = none ∧
      (∀ r ∈ rs, WfRecord r) ∧ rs.length < n.toNat ∧
      s.present = .block (bankLayout { count := n, records := rs } ++ recordLayout r) true ∧
      r.data.length < r.length.toNat) :=
  ⟨⟨idle (.block [] true), 1, [], rfl, by simp, by decide, rfl⟩,
    ⟨idle (.block (bankLayout { count := 2, records := [scenario] } ++ List.replicate 9 0) true), 2, [scenario],
      List.replicate 9 0, rfl, by decide, by decide, rfl, by decide⟩,
    idle (.block (bankLayout { count := 2, records := [scenario] } ++ recordLayout badRecord) true), 2, [scenario],
    badRecord, rfl, by decide, by decide, rfl, by decide⟩

theorem witness_ContainerRoundTrip : ∃ (s : State) (c : Bank), s.running = none ∧ s.present = .bank c ∧ WfBank c ∧
    bankSize c ≤ s.cfgCapacity :=
  ⟨idle (.bank { count := 0, records := [] }), { count := 0, records := [] }, rfl, rfl, by decide,
    Nat.le_add_left 1 _⟩

/-- V5's wrong counts: one too few, one too many without padding, with enough padding, and with too little. -/
theorem witness_WrongCountIsNotDetected :
    (∀ r ∈ (bankTwo 1).records, WfRecord r) ∧
    (bankSer 27 (bankTwo 1) false = .ok (bankTwoBytes 1) ∧
      (bankTwo 1).count.toNat < (bankTwo 1).records.length) ∧
    (bankSer 27 (bankTwo 3) false = .ok (bankTwoBytes 3) ∧
      (bankTwo 3).records.length < (bankTwo 3).count.toNat) ∧
    (bankSer 37 (bankTwo 3) true = .ok (bankTwoBytes 3 ++ zeros 10) ∧
      10 * ((bankTwo 3).count.toNat - (bankTwo 3).records.length) ≤ 37 - bankSize (bankTwo 3)) ∧
    (bankSer 36 (bankTwo 3) true = .ok (bankTwoBytes 3 ++ zeros 9) ∧
      36 - bankSize (bankTwo 3) < 10 * ((bankTwo 3).count.toNat - (bankTwo 3).records.length)) := by decide

/-- A `BANK.PAR` about to read a record header that ends where the buffer ends. -/
theorem witness_BankParCursorStaysInTheBuffer :
    ∃ (s t : State) (b : Bytes) (h' : Option RecHeader), s.start = false ∧ s.inp = .block b true ∧
      s.running = some (.bankPar (some 1) 1 0 none []) ∧ 1 ≤ b.length ∧ step s = .next t ∧
      t.running = some (.bankPar (some 1) 11 0 h' []) :=
  ⟨{ State.reset with
      inp := .block (1 :: List.replicate 10 0) true, running := some (.bankPar (some 1) 1 0 none []) },
    _, _, _, rfl, rfl, rfl, by decide, rfl, rfl⟩

theorem witness_SwapReversesWholeWords :
    (∃ s : State, s.running = none ∧ s.argWidth.toNat = 0) ∧
    (∃ s : State, s.running = none ∧ 4 < s.argWidth.toNat) ∧
    (∃ (s : State) (d : Bytes), s.running = none ∧ 1 ≤ s.argWidth.toNat ∧ s.argWidth.toNat ≤ 4 ∧
      s.present = .block d true ∧ 1 < d.length / s.argWidth.toNat) :=
  ⟨⟨State.reset, by decide⟩, ⟨{ State.reset with argWidth := 5 }, by decide⟩,
    { idle (.block (List.replicate 9 0) true) with argWidth := 4 }, List.replicate 9 0, by decide⟩

theorem witness_SwapTwiceTruncates : 1 ≤ 4 ∧ 4 ≤ 4 := by decide

theorem witness_OperationFrame :
    (∃ t : State, Instr.isEnv .pack = false ∧ exec .pack (idle (.block [0x80] true)) = .next t ∧ Instr.pack ≠ .parse) ∧
    (∃ t : State, exec .pack (idle .empty) = .next t ∧ t.running ≠ none) :=
  ⟨⟨_, rfl, rfl, by decide⟩, _, rfl, by decide⟩

theorem witness_EnvelopeCommandFrame :
    (∃ t : State, exec (.envHeader (List.replicate 16 0)) (parsing 0 []) = .next t ∧ t.running ≠ none) ∧
    (∃ t : State, exec (.envData [0x01, 0x00]) (parsing 0 []) = .next t ∧ t.running ≠ none) ∧
    (∃ t : State, exec (.envTrailer (List.replicate 8 0)) (parsing 0 []) = .next t ∧ t.running ≠ none) :=
  ⟨⟨_, rfl, by decide⟩, ⟨_, rfl, by decide⟩, ⟨_, rfl, by decide⟩⟩

theorem witness_ErrorLeavesNothingBehind :
    (∃ t : State, exec .bankPar (idle (.block [] true)) = .next t ∧ t.running = none ∧ t.status ≠ 0) ∧
    (∃ t : State, exec .pack (idle (.block [] true)) = .next t ∧ t.running = none ∧ t.status = 0) ∧
    (∃ t : State, exec (.envHeader []) (parsing 0 []) = .next t ∧ t.running = none) :=
  ⟨⟨_, rfl, by decide, by decide⟩, ⟨_, rfl, by decide, by decide⟩, _, rfl, by decide⟩

/-- An error at a start, and one inside a `BANK.PAR` that runs. -/
theorem witness_EveryErrorLeavesNoResult :
    (∃ s t : State, step s = .next t ∧ s.start = true ∧ s.running = none ∧ t.running = none ∧ t.status ≠ 0) ∧
    (∃ s t : State, step s = .next t ∧ s.running ≠ none ∧ t.running = none ∧ t.status ≠ 0) :=
  ⟨⟨asked 0xF .empty, _, rfl, by decide⟩,
    { State.reset with inp := .block [] true, running := some (.bankPar none 0 0 none []) }, _, rfl, by decide⟩

theorem witness_EveryStepLeavesTheArguments : ∃ t : State, step (asked 0x1 .empty) = .next t := ⟨_, rfl⟩

theorem witness_ErrorsOfEachOperation :
    (∃ t : State, exec .bankPar (idle (.block [] true)) = .next t ∧ t.running = none) ∧
    (∃ t : State, exec (.envTrailer []) (parsing 0 []) = .next t ∧ t.running = none) :=
  ⟨⟨_, rfl, by decide⟩, _, rfl, by decide⟩

theorem witness_ValidBitsAreSetByTheirEnvelopesOnly :
    (∃ s t : State, s.res.hdrV = false ∧ step s = .next t ∧ t.res.hdrV = true) ∧
    (∃ s t : State, s.res.trlV = false ∧ step s = .next t ∧ t.res.trlV = true) :=
  ⟨⟨parsing 0 [envelope Config.cmdHeader (List.replicate 16 0)], _, by decide, rfl, by decide⟩,
    asked 0x6 (.envelopes [envelope Config.cmdTrailer (List.replicate 8 0)] true), _, by decide, rfl, by decide⟩

theorem witness_EarlierOperationsLeaveNoTrace : ∃ t : State, Instr.isEnv .nibEnc = false ∧
    State.reset.running = none ∧ exec .nibEnc State.reset = .next t ∧ t.running = none :=
  ⟨_, rfl, rfl, rfl, rfl⟩

theorem witness_ArgumentsAreSampledAtTheStart : (parsing 0 []).running ≠ none := by decide

/-- An operation that is still running after the step: a `PACK` whose operand has not come. -/
theorem witness_RunningOperationShowsNothing : ∃ s t : State, s.Inv ∧ step s = .next t ∧ t.running ≠ none := by
  refine ⟨asked 0x3 .empty, _, ?_, rfl, by decide⟩
  constructor <;> simp [asked, State.request, State.reset, ResultRegs.cleared]

/-- `BUILD` in EMIT_DATA with a chunk left, and with none left. -/
theorem witness_BuildPositionMovesForward :
    (∃ (s t : State) (em : List Bytes), s.running = some (.build 0 .emitData 0 []) ∧ s.start = false ∧
      step s = .next t ∧ t.running = some (.build 0 .emitData 1 em) ∧ s.inp.asBlock ≠ .pending) ∧
    (∃ s t : State, s.running = some (.build 0 .emitData 1 []) ∧ s.start = false ∧
      step s = .next t ∧ t.running = some (.build 0 .emitTrailer 1 [])) :=
  ⟨⟨{ State.reset with inp := .block [0x80] true, running := some (.build 0 .emitData 0 []) }, _, _, rfl, rfl, rfl,
      rfl, by decide⟩,
    { State.reset with inp := .block [0x80] true, running := some (.build 0 .emitData 1 []) }, _, rfl, rfl, rfl,
    rfl⟩

theorem witness_LateOperandGivesTheSameResult :
    ∃ s : State, s.running = none ∧ 1 ≤ s.argWidth.toNat ∧ s.argWidth.toNat ≤ 4 :=
  ⟨{ State.reset with argWidth := 2 }, by decide⟩

theorem witness_ParseStepByStepAgrees : State.reset.running = none ∧
    ((.empty : InStream) = .empty ∨ ∃ es0, (.empty : InStream) = .envelopes es0 false) := ⟨rfl, .inl rfl⟩

theorem witness_BuildStepByStepAgrees : State.reset.running = none ∧
    ((.block [0x80] false : InStream) = .empty ∨ ∃ b0, (.block [0x80] false : InStream) = .block b0 false) :=
  ⟨rfl, .inr ⟨_, rfl⟩⟩

theorem witness_BankParStepByStepAgrees : State.reset.running = none ∧
    ((.block [0x01] false : InStream) = .empty ∨ ∃ b0, (.block [0x01] false : InStream) = .block b0 false) :=
  ⟨rfl, .inr ⟨_, rfl⟩⟩

end Sys2Proof.Tests
end

section
/-! SUPPORT. Which byte sequences are 7-bit-safe: nibbles, packed bytes and the envelopes `BUILD` makes of them
(00_scope.md rule R17; 30_encoding.md rule R90). -/

namespace Sys2Proof.Machine

/-- Sequences that are 7-bit-safe are so one after the other. -/
theorem SevenBitSafe.append {a b : Bytes} (ha : SevenBitSafe a) (hb : SevenBitSafe b) : SevenBitSafe (a ++ b) :=
  List.forall_mem_append.mpr ⟨ha, hb⟩

/-- A byte without its high bit is below 128. -/
theorem toNat_lt_of_getLsbD_seven {x : Byte} (h : x.getLsbD 7 = false) : x.toNat < 128 := by
  have hmsb : x.msb = false := by rwa [BitVec.msb_eq_getLsbD_last]
  have := BitVec.msb_eq_false_iff_two_mul_lt.mp hmsb
  omega

theorem sevenBitSafe_nibenc (v : U32) : SevenBitSafe (nibenc v) := by
  intro x hx
  obtain ⟨i, -, rfl⟩ := List.mem_map.mp hx
  have hle : ((v >>> (4 * (7 - i))) &&& 0xF#32).toNat ≤ 15 := by
    rw [BitVec.toNat_and]
    exact Nat.and_le_right
  rw [BitVec.toNat_setWidth]
  omega

/-- A group of at most seven bytes leaves bit 7 of its flag byte clear (R88). -/
theorem sevenBitSafe_packGroup {g : Bytes} (hg : g.length ≤ 7) : SevenBitSafe (packGroup g) := by
  refine List.forall_mem_cons.mpr ⟨toNat_lt_of_getLsbD_seven ?_, fun x hx => toNat_lt_of_getLsbD_seven ?_⟩
  · have h7 : byteAt g 7 = 0 := by simp [byteAt, List.getElem?_eq_none hg]
    rw [packFlag_getLsbD, h7]
    rfl
  · obtain ⟨b, -, rfl⟩ := List.mem_map.mp hx
    simp

theorem sevenBitSafe_pack (d : Bytes) : SevenBitSafe (pack d) := by
  intro x hx
  obtain ⟨g, hg, hx⟩ := List.mem_flatMap.mp hx
  exact sevenBitSafe_packGroup (slices_mem hg).1 x hx

/-- An envelope is 7-bit-safe when its command byte and its payload are. -/
theorem sevenBitSafe_envelope {c : Byte} {p : Bytes} (hc : c.toNat < 128) (hp : SevenBitSafe p) :
    SevenBitSafe (envelope c p) :=
  SevenBitSafe.append (by decide) (List.forall_mem_cons.mpr ⟨hc, hp⟩)

theorem sevenBitSafe_headerEnvelope (length offset : U32) : SevenBitSafe (headerEnvelope length offset) :=
  sevenBitSafe_envelope (by decide) ((sevenBitSafe_nibenc _).append (sevenBitSafe_nibenc _))

theorem sevenBitSafe_dataEnvelope (c : Bytes) : SevenBitSafe (dataEnvelope c) :=
  sevenBitSafe_envelope (by decide) (sevenBitSafe_pack c)

theorem sevenBitSafe_trailerEnvelope (checksum : U32) : SevenBitSafe (trailerEnvelope checksum) :=
  sevenBitSafe_envelope (by decide) (sevenBitSafe_nibenc checksum)

theorem sevenBitSafe_buildEnvelopes (crc : Bytes → U32) (offset : U32) (b : Bytes) :
    ∀ e ∈ buildEnvelopes crc offset b, SevenBitSafe e := by
  refine List.forall_mem_append.mpr ⟨List.forall_mem_cons.mpr ⟨sevenBitSafe_headerEnvelope _ _, ?_⟩, ?_⟩
  · exact List.forall_mem_map.mpr fun c _ => sevenBitSafe_dataEnvelope c
  · exact List.forall_mem_singleton.mpr (sevenBitSafe_trailerEnvelope _)

end Sys2Proof.Machine
end

section
/-! SUPPORT. What the operations' functions can answer: the results they give and the errors they raise (10_state.md
rule R40). -/

namespace Sys2Proof.Machine

/-- `BUILD`'s length check raises Precondition and nothing else (R152). -/
theorem buildCheck_error {b : Bytes} {x : Exn} (h : buildCheck b = .error x) : x.err = .precondition := by
  unfold buildCheck at h
  split at h <;> cases h
  rfl

/-- `BUILD` gives its envelopes, or raises what its length check raises (R150, R152). -/
theorem build_eq (crc : Bytes → U32) (offset : U32) (b : Bytes) :
    build crc offset b = (buildCheck b).map fun _ => buildEnvelopes crc offset b := by
  unfold build
  cases buildCheck b <;> rfl

/-- `BANK.SER` raises Precondition or OverCapacity (R191, R193). -/
theorem bankSer_error {n : Nat} {c : Bank} {pad : Bool} {x : Exn} (h : bankSer n c pad = .error x) :
    x.err ∈ [Err.overCapacity, Err.precondition] := by
  unfold bankSer at h
  split at h
  · cases h; simp
  · split at h
    · cases h; simp
    · split at h <;> cases h

theorem readRecords_header_error {d : Bytes} {pos n : Nat} {x : Exn} (h : memRead d pos Config.recHdr = .error x) :
    readRecords d (n + 1) pos = .error x := by
  simp [readRecords, h]

section
variable {d h : Bytes} {pos n : Nat} (hh : memRead d pos Config.recHdr = .ok h)
include hh

theorem readRecords_data_error {x : Exn}
    (hx : memRead d (pos + Config.recHdr) (recHeader h).length.toNat = .error x) :
    readRecords d (n + 1) pos = .error x := by
  simp [readRecords, hh, hx]

theorem readRecords_data_ok {r : Bytes} (hr : memRead d (pos + Config.recHdr) (recHeader h).length.toNat = .ok r) :
    readRecords d (n + 1) pos = (readRecords d n (pos + Config.recHdr + (recHeader h).length.toNat)).map fun rs =>
      (recHeader h).record r :: rs := by
  simp only [readRecords, hh, hr]
  cases readRecords d n (pos + Config.recHdr + (recHeader h).length.toNat) <;> rfl

end

theorem bankPar_count_error {d : Bytes} {x : Exn} (h : memRead d 0 1 = .error x) : bankPar d = .error x := by
  simp [bankPar, h]

theorem bankPar_count_ok {d c : Bytes} (h : memRead d 0 1 = .ok c) :
    bankPar d = (readRecords d (byteAt c 0).toNat 1).map fun rs => { count := byteAt c 0, records := rs } := by
  simp only [bankPar, h]
  cases readRecords d (byteAt c 0).toNat 1 <;> rfl

/-- The records that are read are as many as asked for, and well-formed (R21, R195). -/
theorem readRecords_ok {b : Bytes} {n pos : Nat} {rs : List SampleRecord} (h : readRecords b n pos = .ok rs) :
    rs.length = n ∧ ∀ r ∈ rs, WfRecord r := by
  induction n generalizing pos rs with
  | zero => cases h; simp
  | succ n ih =>
    simp only [readRecords] at h
    split at h
    · cases h
    split at h
    · cases h
    next hd =>
    split at h
    · cases h
    next hrs =>
    cases h
    obtain ⟨hlen, hwf⟩ := ih hrs
    exact ⟨by simp [hlen], List.forall_mem_cons.mpr ⟨(memRead_length hd).symm, hwf⟩⟩

/-- Reading records raises Truncated and nothing else (R196). -/
theorem readRecords_error {b : Bytes} {n pos : Nat} {x : Exn} (h : readRecords b n pos = .error x) :
    x.err = .truncated := by
  induction n generalizing pos with
  | zero => cases h
  | succ n ih =>
    simp only [readRecords] at h
    split at h
    next hm => cases h; rw [(memRead_error.mp hm).2]
    split at h
    next hm => cases h; rw [(memRead_error.mp hm).2]
    split at h
    next hrs => cases h; exact ih hrs
    cases h

/-- `BANK.PAR` gives well-formed banks only (R23, R195). -/
theorem bankPar_ok {b : Bytes} {c : Bank} (h : bankPar b = .ok c) : WfBank c := by
  unfold bankPar at h
  split at h
  · cases h
  split at h
  · cases h
  next hrs =>
  cases h
  obtain ⟨hlen, hwf⟩ := readRecords_ok hrs
  exact ⟨hlen.symm, hwf⟩

/-- `BANK.PAR` raises Truncated and nothing else (R196). -/
theorem bankPar_error {b : Bytes} {x : Exn} (h : bankPar b = .error x) : x.err = .truncated := by
  unfold bankPar at h
  split at h
  next hm => cases h; rw [(memRead_error.mp hm).2]
  split at h
  next hrs => cases h; exact readRecords_error hrs
  cases h

/-- `SWAP`'s width check raises Precondition and nothing else (R221). -/
theorem swapCheck_error {w : Nat} {x : Exn} (h : swapCheck w = .error x) : x.err = .precondition := by
  unfold swapCheck at h
  split at h <;> cases h
  rfl

/-- The legal widths pass the check (R221). -/
theorem swapCheck_ok {w : Nat} (h1 : 1 ≤ w) (h4 : w ≤ 4) : swapCheck w = .ok () :=
  if_neg (by omega)

end Sys2Proof.Machine
end

section
/-! SUPPORT. `parse_step` and its fold: what one envelope can do to the result registers (42_message_assembler.md
rules R155, R156, R160 to R162, R166). -/

namespace Sys2Proof.Machine

/-- A HEADER sets `LEN`, `OFF` and `HDR_V` (R160). -/
theorem headerEffect_ok {p : Bytes} {j : Nat} {r r' : ResultRegs} (h : headerEffect p j r = .ok r') :
    ∃ l o, r' = r.setHeader l o := by
  unfold headerEffect at h
  split at h <;> cases h
  exact ⟨_, _, rfl⟩

theorem headerEffect_error {p : Bytes} {j : Nat} {r : ResultRegs} {x : Exn} (h : headerEffect p j r = .error x) :
    x.err = .malformedEnvelope := by
  unfold headerEffect at h
  split at h <;> cases h
  rfl

/-- A DATA is appended to `ACC` when there is room (R161, R166). -/
theorem dataEffect_ok {p : Bytes} {j : Nat} {r r' : ResultRegs} (h : dataEffect p j r = .ok r') :
    r.acc.length + (unpack p).length ≤ Config.bufMax ∧ r' = r.append (unpack p) := by
  unfold dataEffect at h
  split at h <;> cases h
  exact ⟨Nat.le_of_not_gt ‹_›, rfl⟩

theorem dataEffect_error {p : Bytes} {j : Nat} {r : ResultRegs} {x : Exn} (h : dataEffect p j r = .error x) :
    x.err = .overflow := by
  unfold dataEffect at h
  split at h <;> cases h
  rfl

/-- A TRAILER sets `CSUM` and `TRL_V` (R162). -/
theorem trailerEffect_ok {p : Bytes} {j : Nat} {r r' : ResultRegs} (h : trailerEffect p j r = .ok r') :
    ∃ c, r' = r.setTrailer c := by
  unfold trailerEffect at h
  split at h <;> cases h
  exact ⟨_, rfl⟩

theorem trailerEffect_error {p : Bytes} {j : Nat} {r : ResultRegs} {x : Exn} (h : trailerEffect p j r = .error x) :
    x.err = .malformedEnvelope := by
  unfold trailerEffect at h
  split at h <;> cases h
  rfl

/-- What `parse_step` can do to the result registers: nothing, or what the envelope's command does (R156). -/
inductive ParseStepKind (e : Bytes) (r : ResultRegs) : ResultRegs → Prop
  | same : ParseStepKind e r r
  | header {p : Bytes} {l o : U32} : classify e = .header p → ParseStepKind e r (r.setHeader l o)
  | data {d : Bytes} : r.acc.length + d.length ≤ Config.bufMax → ParseStepKind e r (r.append d)
  | trailer {p : Bytes} {c : U32} : classify e = .trailer p → ParseStepKind e r (r.setTrailer c)

theorem parseStep_ok {e : Bytes} {j : Nat} {r r' : ResultRegs} (h : parseStep e j r = .ok r') :
    ParseStepKind e r r' := by
  unfold parseStep at h
  split at h
  · cases h; exact .same
  · cases h; exact .same
  · obtain ⟨l, o, rfl⟩ := headerEffect_ok h
    exact .header ‹_›
  · obtain ⟨hroom, rfl⟩ := dataEffect_ok h
    exact .data hroom
  · obtain ⟨c, rfl⟩ := trailerEffect_ok h
    exact .trailer ‹_›

/-- `parse_step` raises MalformedEnvelope or Overflow (R160, R162, R166). -/
theorem parseStep_error {e : Bytes} {j : Nat} {r : ResultRegs} {x : Exn} (h : parseStep e j r = .error x) :
    x.err ∈ [Err.malformedEnvelope, Err.overflow] := by
  unfold parseStep at h
  split at h
  · cases h
  · cases h
  · simp [headerEffect_error h]
  · simp [dataEffect_error h]
  · simp [trailerEffect_error h]

/-- What every envelope of a list keeps, the fold over the list keeps. -/
theorem parseFrom_keeps {P : ResultRegs → Prop} {es : List Bytes} {j : Nat} {r r' : ResultRegs}
    (hstep : ∀ e ∈ es, ∀ j r r', parseStep e j r = .ok r' → P r → P r') (h : parseFrom es j r = .ok r')
    (hr : P r) : P r' := by
  induction es generalizing j r with
  | nil => cases h; exact hr
  | cons e es ih =>
    simp only [parseFrom] at h
    split at h
    next r1 h1 =>
      exact ih (fun e he => hstep e (.tail _ he)) h (hstep e (.head _) j r r1 h1 hr)
    next => cases h

/-- The fold raises what `parse_step` raises. -/
theorem parseFrom_error {es : List Bytes} {j : Nat} {r : ResultRegs} {x : Exn} (h : parseFrom es j r = .error x) :
    x.err ∈ [Err.malformedEnvelope, Err.overflow] := by
  induction es generalizing j r with
  | nil => cases h
  | cons e es ih =>
    simp only [parseFrom] at h
    split at h
    next => exact ih h
    next hx => cases h; exact parseStep_error hx

/-- The clauses of `State.Inv` on the result registers: the valid bits say which hold a value, and `ACC` fits (R30,
R31). -/
structure ResultRegs.Valid (r : ResultRegs) : Prop where
  len : r.len.isSome = r.hdrV
  off : r.off.isSome = r.hdrV
  csum : r.csum.isSome = r.trlV
  acc : r.acc.length ≤ Config.bufMax

theorem ResultRegs.cleared_valid : ResultRegs.cleared.Valid :=
  ⟨rfl, rfl, rfl, Nat.zero_le _⟩

theorem parseStep_valid {e : Bytes} {j : Nat} {r r' : ResultRegs} (h : parseStep e j r = .ok r') (hr : r.Valid) :
    r'.Valid := by
  obtain ⟨hlen, hoff, hcsum, hacc⟩ := hr
  cases parseStep_ok h with
  | same => exact ⟨hlen, hoff, hcsum, hacc⟩
  | header _ => exact ⟨rfl, rfl, hcsum, hacc⟩
  | data hroom => exact ⟨hlen, hoff, hcsum, by simpa using hroom⟩
  | trailer _ => exact ⟨hlen, hoff, rfl, hacc⟩

theorem parse_valid {es : List Bytes} {r : ResultRegs} (h : parse es = .ok r) : r.Valid :=
  parseFrom_keeps (fun _ _ _ _ _ => parseStep_valid) h ResultRegs.cleared_valid

end Sys2Proof.Machine
end

section
/-! SUPPORT. What the sequencer fetches, and the step of a running `PARSE` (10_state.md rules R34 to R36). -/

namespace Sys2Proof.Machine

theorem step_instr {s : State} {i : Instr} (h : fetch s = .instr i) : step s = exec i s := by
  simp [step, h]

theorem step_other {s : State} {r : Result} (h : fetch s = .other r) : step s = r := by
  simp [step, h]

/-- A running operation without a request is resumed. -/
theorem fetch_running {s : State} {p : Running} (hr : s.running = some p) (hs : s.start = false) :
    fetch s = resume p s := by
  simp [fetch, hr, hs]

/-- An idle block with a request reads its `op` code. -/
theorem fetch_start {s : State} (hr : s.running = none) (hs : s.start = true) : fetch s = fetchOp s := by
  simp [fetch, hr, hs]

theorem fetchOp_ok {s : State} {i : Instr} (h : decode (.op s.op) = .ok i) : fetchOp s = .instr i := by
  simp [fetchOp, h]

theorem fetchOp_error {s : State} {x : Reject} (h : decode (.op s.op) = .error x) :
    fetchOp s = .other (.next s.illegalOp) := by
  simp [fetchOp, h]

/-- An `op` code names an operation, never an envelope command (R100). -/
theorem isEnv_of_decode_op {c : BitVec 4} {i : Instr} (h : decode (.op c) = .ok i) : i.isEnv = false := by
  simp only [decode, decodeOp] at h
  split at h <;> cases h <;> rfl

/-- Envelope `j` of a list on `in`, open or whole (R36). -/
theorem InStream.envelopeAt_of_getElem? {es : List Bytes} {eos : Bool} {j : Nat} {e : Bytes} (h : es[j]? = some e) :
    (InStream.envelopes es eos).envelopeAt j = .got e := by
  simp [InStream.envelopeAt, h]

section
variable {s : State} {j : Nat} {e : Bytes} (he : s.inp.envelopeAt j = .got e)
include he

/-- The next envelope is a command. -/
theorem fetchEnvelope_command {i : Instr} (h : decode (.envelope e) = .ok i) : fetchEnvelope j s = .instr i := by
  simp [fetchEnvelope, he, h]

/-- The next envelope is no command. -/
theorem fetchEnvelope_skip {x : Reject} (h : decode (.envelope e) = .error x) :
    fetchEnvelope j s = .other (.next (s.skipEnvelope j)) := by
  simp [fetchEnvelope, he, h]

end

/-- The state that `parse_step`'s answer at index `j` leaves a running `PARSE` in (R36, R156). -/
def State.afterEnvelope (j : Nat) (r : Except Exn ResultRegs) (s : State) : State :=
  match r with
  | .ok r => { s with res := r, running := some (.parse (j + 1)) }
  | .error x => s.raise x

@[simp] theorem State.afterEnvelope_ok (j : Nat) (r : ResultRegs) (s : State) :
    s.afterEnvelope j (.ok r) = { s with res := r, running := some (.parse (j + 1)) } := rfl

@[simp] theorem State.afterEnvelope_error (j : Nat) (x : Exn) (s : State) :
    s.afterEnvelope j (.error x) = s.raise x := rfl

/-- An envelope command inside a `PARSE` leaves what its effect gives. -/
theorem State.envCommand_eq_afterEnvelope {f : Nat → ResultRegs → Except Exn ResultRegs} {s : State} {j : Nat}
    (hr : s.running = some (.parse j)) : s.envCommand f = .next (s.afterEnvelope j (f j s.res)) := by
  rw [State.envCommand_parse hr]
  cases f j s.res <;> rfl

section
variable {s : State} {j : Nat} (hr : s.running = some (.parse j)) (hs : s.start = false)
include hr hs

/-- A running `PARSE` runs the command of its next envelope. -/
theorem step_parse_command {e : Bytes} {i : Instr} {f : Nat → ResultRegs → Except Exn ResultRegs}
    (he : s.inp.envelopeAt j = .got e) (hd : decode (.envelope e) = .ok i) (hi : exec i s = s.envCommand f) :
    step s = .next (s.afterEnvelope j (f j s.res)) := by
  have hfetch : fetch s = .instr i := (fetch_running hr hs).trans (fetchEnvelope_command he hd)
  rw [step_instr hfetch, hi, State.envCommand_eq_afterEnvelope hr]

/-- A running `PARSE` skips an envelope that is no command (R108). -/
theorem step_parse_skip {e : Bytes} {x : Reject} (he : s.inp.envelopeAt j = .got e)
    (hd : decode (.envelope e) = .error x) : step s = .next (s.skipEnvelope j) :=
  step_other ((fetch_running hr hs).trans (fetchEnvelope_skip he hd))

/-- Running an envelope command, or skipping the envelope, is `parse_step` at the position of the `PARSE` (R156). -/
theorem step_parse_envelope {e : Bytes} (he : s.inp.envelopeAt j = .got e) :
    step s = .next (s.afterEnvelope j (parseStep e j s.res)) := by
  cases hc : classify e with
  | skip =>
    simp only [parseStep, hc]
    exact step_parse_skip hr hs (x := .skipped) he (by simp [decode, decodeEnvelope, hc])
  | unknown c =>
    simp only [parseStep, hc]
    exact step_parse_skip hr hs (x := .unknownCommand c) he (by simp [decode, decodeEnvelope, hc])
  | header p =>
    simp only [parseStep, hc]
    exact step_parse_command hr hs (i := .envHeader p) he (by simp [decode, decodeEnvelope, hc]) rfl
  | data p =>
    simp only [parseStep, hc]
    exact step_parse_command hr hs (i := .envData p) he (by simp [decode, decodeEnvelope, hc]) rfl
  | trailer p =>
    simp only [parseStep, hc]
    exact step_parse_command hr hs (i := .envTrailer p) he (by simp [decode, decodeEnvelope, hc]) rfl

/-- The end of a whole list ends a running `PARSE` (R155). -/
theorem step_parse_ended (he : s.inp.envelopeAt j = .ended) : step s = .next (s.finish .empty) :=
  step_other ((fetch_running hr hs).trans (by simp [resume, fetchEnvelope, he]))

/-- A step of a running `PARSE` takes the next envelope, ends the operation, or waits (R36). -/
theorem step_parse_next {t : State} (h : step s = .next t) :
    (∃ e, s.inp.envelopeAt j = .got e ∧ t = s.afterEnvelope j (parseStep e j s.res)) ∨
      t = s.finish .empty ∨ t = s := by
  cases he : s.inp.envelopeAt j with
  | got e =>
    rw [step_parse_envelope hr hs he] at h
    exact .inl ⟨e, rfl, by simpa using h.symm⟩
  | ended =>
    rw [step_parse_ended hr hs he] at h
    exact .inr (.inl (by simpa using h.symm))
  | waiting =>
    have hstep : step s = .next s := step_other ((fetch_running hr hs).trans (by simp [resume, fetchEnvelope, he]))
    exact .inr (.inr (by simpa [hstep] using h.symm))
  | otherKind =>
    have hstep : step s = .fault .operandKind :=
      step_other ((fetch_running hr hs).trans (by simp [resume, fetchEnvelope, he]))
    simp [hstep] at h

end

end Sys2Proof.Machine
end

section
/-! SUPPORT. The operations' bodies and positions, an equation for each case (10_state.md rules R35, R37;
44_sample_endian_adapter.md rule R221). -/

namespace Sys2Proof.Machine

theorem exec_nibEnc_idle {s : State} (h : s.running = none) :
    exec .nibEnc s = .next (s.beginOp.finish (.block (nibenc s.argValue))) :=
  State.startOp_idle (fun t => .next (t.finish (.block (nibenc t.argValue)))) h

theorem exec_nibDec_idle {s : State} (h : s.running = none) :
    exec .nibDec s = .next (s.beginOp.finish (.value s.argNibValue)) :=
  State.startOp_idle (fun t => .next (t.finish (.value t.argNibValue))) h

/-- `SWAP` of an illegal width (R221). -/
theorem swapBody_error {w : BitVec 3} {x : Exn} (hw : swapCheck w.toNat = .error x) (s : State) :
    swapBody w s = .next (s.raise x) := by
  simp [swapBody, hw]

/-- `SWAP` of a legal width (R220). -/
theorem swapBody_ok {w : BitVec 3} (hw : swapCheck w.toNat = .ok ()) (s : State) :
    swapBody w s = s.withOperand s.inp.asBlock (.swap w) fun d => s.finish (.block (swapWords w.toNat d)) := by
  simp [swapBody, hw]

/-! ### The advances of a running `BUILD` whose flat buffer is whole, case by case (R35) -/

section
variable {crc : Bytes → U32} {offset : U32} {i : Nat} {em : List Bytes} {b : Bytes} {s : State}

theorem buildAdvance_header_error {x : Exn} (hb : buildCheck b = .error x) :
    buildAdvance crc offset .emitHeader i em b s = s.raise x := by
  simp [buildAdvance, hb]

theorem buildAdvance_header_ok {u : Unit} (hb : buildCheck b = .ok u) :
    buildAdvance crc offset .emitHeader i em b s = { s with
      running := some (.build offset .emitData 0 (em ++ [headerEnvelope (BitVec.ofNat 32 b.length) offset])) } := by
  simp [buildAdvance, hb]

theorem buildAdvance_data_end (hb : b.length ≤ Config.chunk * i) :
    buildAdvance crc offset .emitData i em b s = { s with running := some (.build offset .emitTrailer i em) } :=
  if_pos hb

theorem buildAdvance_data_more (hb : ¬ b.length ≤ Config.chunk * i) :
    buildAdvance crc offset .emitData i em b s = { s with
      running := some (.build offset .emitData (i + 1)
        (em ++ [dataEnvelope ((b.drop (Config.chunk * i)).take Config.chunk)])) } :=
  if_neg hb

end

/-! ### The reads of a running `BANK.PAR`, case by case (R37) -/

section
variable (pos k : Nat) (rs : List SampleRecord) (s : State)

theorem bankParStep_count (hdr : Option RecHeader) :
    bankParStep none pos k hdr rs s = s.withRead (s.inp.readAt pos 1) pos fun d =>
      .bankPar (some (byteAt d 0)) (pos + 1) k hdr rs := rfl

theorem bankParStep_data (c : Byte) (h : RecHeader) :
    bankParStep (some c) pos k (some h) rs s = s.withRead (s.inp.readAt pos h.length.toNat) pos fun d =>
      .bankPar (some c) (pos + h.length.toNat) (k + 1) none (rs ++ [h.record d]) := rfl

theorem bankParStep_header {c : Byte} (hk : k < c.toNat) :
    bankParStep (some c) pos k none rs s = s.withRead (s.inp.readAt pos Config.recHdr) pos fun d =>
      .bankPar (some c) (pos + Config.recHdr) k (some (recHeader d)) rs := if_pos hk

theorem bankParStep_end {c : Byte} (hk : ¬ k < c.toNat) :
    bankParStep (some c) pos k none rs s = .next (s.finish (.bank { count := c, records := rs })) := if_neg hk

end

end Sys2Proof.Machine
end

section
/-! SUPPORT. What an operation can do to the state it works on, said once: deliver, raise, or stay in progress
(10_state.md rules R34 to R37, R40, R42; 60_exceptions.md rule R240). -/

namespace Sys2Proof.Machine

/-- The clauses of `State.Inv` on what stands on `out` (R23, R90). -/
def OutStream.Sound : OutStream → Prop
  | .empty => True
  | .block _ => True
  | .envelopes es => ∀ e ∈ es, SevenBitSafe e
  | .bank c => WfBank c
  | .value _ => True

/-- What the operation at position `p` can make of the state `b` it works on: a result on `out`, an error of `errs`, or
another position.  Only a `PARSE` does anything else (`State.afterEnvelope`, `State.settleParse`). -/
inductive Advance (p : Running) (errs : List Err) (b : State) : State → Prop
  | finish {out : OutStream} (h : p.Inv → out.Sound) : Advance p errs b (b.finish out)
  | raise {x : Exn} (h : x.err ∈ errs) : Advance p errs b (b.raise x)
  | run {w : Running} (h : p.Inv → w.Inv) (hw : w.isParse = p.isParse) :
      Advance p errs b { b with running := some w }

section
variable {p : Running} {errs : List Err} {b t : State}

/-- Ending an operation with what its function gives. -/
theorem advance_settle {α : Type} {r : Except Exn α} {f : α → OutStream} (hok : ∀ a, r = .ok a → (f a).Sound)
    (herr : ∀ x, r = .error x → x.err ∈ errs) : Advance p errs b (b.settle (r.map f)) := by
  cases r with
  | ok a => exact .finish fun _ => hok a rfl
  | error x => exact .raise (herr x rfl)

/-- Going on with a whole operand, or waiting for it at the same position. -/
theorem advance_withOperand {α : Type} {operand : Presented α} {go : α → State}
    (h : b.withOperand operand p go = .next t) (hgo : ∀ a, operand = .whole a → Advance p errs b (go a)) :
    Advance p errs b t := by
  obtain ⟨a, ha, rfl⟩ | ⟨-, rfl⟩ := State.withOperand_next h
  · exact hgo a ha
  · exact .run id rfl

/-- Going on with bytes read, raising Truncated, or waiting for them at the same position. -/
theorem advance_withRead {a : Arrival} {addr : Nat} {go : Bytes → Running} (hr : b.running = some p)
    (h : b.withRead a addr go = .next t) (hx : .truncated ∈ errs) (hk : ∀ d, (go d).isParse = p.isParse)
    (hgo : ∀ d, a = .got d → p.Inv → (go d).Inv) : Advance p errs b t := by
  obtain ⟨d, hd, rfl⟩ | ⟨-, rfl⟩ | ⟨-, rfl⟩ := State.withRead_next h
  · exact .run (hgo d hd) (hk d)
  · exact .raise hx
  · have hstay : { t with running := some p } = t := by rw [← hr]
    exact hstay ▸ .run id rfl

/-- An operation that has ended was not left waiting for its operand: it ends in this state from every state. -/
theorem withOperand_of_ended {α : Type} {operand : Presented α} {go : α → State}
    (h : b.withOperand operand p go = .next t) (ht : t.running = none) (b' : State) :
    b'.withOperand operand p go = .next t := by
  obtain ⟨a, rfl, rfl⟩ | ⟨-, rfl⟩ := State.withOperand_next h
  · rfl
  · cases ht

end

/-- What has been read of an arriving block has the length asked for (R14). -/
theorem InStream.readAt_got {i : InStream} {a n : Nat} {d : Bytes} (h : i.readAt a n = .got d) :
    d.length = n ∧ ∀ b eob, i = .block b eob → a + n ≤ b.length := by
  unfold InStream.readAt at h
  split at h
  · cases h
  · split at h
    next bytes eob r hm =>
      cases h
      exact ⟨memRead_length hm, fun b eob hb => by cases hb; exact (memRead_ok.mp hm).1⟩
    next => split at h <;> cases h
  · cases h
  · cases h

/-! ### Each operation's body and sequencer step -/

section
variable {b t : State}

theorem advance_packBody (h : packBody b = .next t) : Advance .pack [] b t :=
  advance_withOperand h fun _ _ => .finish fun _ => trivial

theorem advance_unpackBody (h : unpackBody b = .next t) : Advance .unpack [] b t :=
  advance_withOperand h fun _ _ => .finish fun _ => trivial

theorem advance_swapBody {w : BitVec 3} (h : swapBody w b = .next t) : Advance (.swap w) [.precondition] b t := by
  cases hw : swapCheck w.toNat with
  | ok u =>
    rw [swapBody_ok hw] at h
    exact advance_withOperand h fun _ _ => .finish fun _ => trivial
  | error x =>
    rw [swapBody_error hw] at h
    cases h
    exact .raise (by simp [swapCheck_error hw])

theorem advance_bankSerBody {pad : Bool} (h : bankSerBody pad b = .next t) :
    Advance (.bankSer pad) [.overCapacity, .precondition] b t :=
  advance_withOperand h fun _ _ => advance_settle (fun _ _ => trivial) fun _ => bankSer_error

/-- `BUILD` gives 7-bit-safe envelopes only (R90). -/
theorem build_ok {crc : Bytes → U32} {offset : U32} {d : Bytes} {es : List Bytes} (h : build crc offset d = .ok es) :
    ∀ e ∈ es, SevenBitSafe e := by
  rw [build_eq] at h
  cases hc : buildCheck d <;> rw [hc] at h <;> cases h
  exact sevenBitSafe_buildEnvelopes _ _ _

/-- `BUILD` raises Precondition and nothing else (R152). -/
theorem build_error {crc : Bytes → U32} {offset : U32} {d : Bytes} {x : Exn} (h : build crc offset d = .error x) :
    x.err = .precondition := by
  rw [build_eq] at h
  cases hc : buildCheck d <;> rw [hc] at h <;> cases h
  exact buildCheck_error hc

theorem advance_buildBody {offset : U32} (h : buildBody offset b = .next t) :
    Advance (.build offset .emitHeader 0 []) [.precondition] b t :=
  advance_withOperand h fun _ _ => advance_settle (fun _ => build_ok) fun x hx => by simp [build_error hx]

/-- Adding an envelope to those emitted. -/
theorem emitted_append {em : List Bytes} {e : Bytes} (hem : ∀ x ∈ em, SevenBitSafe x) (he : SevenBitSafe e) :
    ∀ x ∈ em ++ [e], SevenBitSafe x :=
  List.forall_mem_append.mpr ⟨hem, List.forall_mem_singleton.mpr he⟩

theorem advance_buildStep {offset : U32} {ph : BuildPhase} {i : Nat} {em : List Bytes}
    (h : buildStep offset ph i em b = .next t) : Advance (.build offset ph i em) [.precondition] b t := by
  refine advance_withOperand h fun d _ => ?_
  cases ph with
  | emitHeader =>
    cases hc : buildCheck d with
    | ok _ =>
      rw [buildAdvance_header_ok hc]
      exact .run (fun hem => emitted_append hem (sevenBitSafe_headerEnvelope _ _)) rfl
    | error x =>
      rw [buildAdvance_header_error hc]
      exact .raise (by simp [buildCheck_error hc])
  | emitData =>
    by_cases hlen : d.length ≤ Config.chunk * i
    · rw [buildAdvance_data_end hlen]
      exact .run id rfl
    · rw [buildAdvance_data_more hlen]
      exact .run (fun hem => emitted_append hem (sevenBitSafe_dataEnvelope _)) rfl
  | emitTrailer => exact .run (fun hem => emitted_append hem (sevenBitSafe_trailerEnvelope _)) rfl
  | done => exact .finish id

theorem advance_bankParBody (h : bankParBody b = .next t) :
    Advance (.bankPar none 0 0 none []) [.truncated] b t :=
  advance_withOperand h fun _ _ => advance_settle (fun _ => bankPar_ok) fun x hx => by simp [bankPar_error hx]

end

theorem advance_bankParStep {c : Option Byte} {pos k : Nat} {hdr : Option RecHeader} {rs : List SampleRecord}
    {s t : State} (hr : s.running = some (.bankPar c pos k hdr rs)) (h : bankParStep c pos k hdr rs s = .next t) :
    Advance (.bankPar c pos k hdr rs) [.truncated] s t := by
  match c, hdr with
  | none, hdr =>
    rw [bankParStep_count] at h
    refine advance_withRead hr h (.head _) (fun _ => rfl) fun d _ hinv => ?_
    obtain ⟨hlen, hwf, hstart, -, -⟩ := hinv
    obtain ⟨hk, hhdr⟩ := hstart rfl
    exact ⟨hlen, hwf, nofun, fun _ _ => hk ▸ Nat.zero_le _, fun _ _ hne => absurd hhdr hne⟩
  | some c, some hd =>
    rw [bankParStep_data] at h
    refine advance_withRead hr h (.head _) (fun _ => rfl) fun d hgot hinv => ?_
    obtain ⟨hlen, hwf, -, -, hlt⟩ := hinv
    have hrec : WfRecord (hd.record d) := (InStream.readAt_got hgot).1.symm
    refine ⟨by simp [hlen], ?_, nofun, fun c' hc => hlt c' hc nofun, fun _ _ hne => absurd rfl hne⟩
    exact List.forall_mem_append.mpr ⟨hwf, List.forall_mem_singleton.mpr hrec⟩
  | some c, none =>
    by_cases hk : k < c.toNat
    · rw [bankParStep_header pos k rs s hk] at h
      refine advance_withRead hr h (.head _) (fun _ => rfl) fun d _ hinv => ?_
      obtain ⟨hlen, hwf, -, hle, -⟩ := hinv
      exact ⟨hlen, hwf, nofun, hle, fun c' hc _ => by cases hc; exact hk⟩
    · rw [bankParStep_end pos k rs s hk] at h
      cases h
      refine .finish fun hinv => ?_
      obtain ⟨hlen, hwf, -, hle, -⟩ := hinv
      have hkc : k ≤ c.toNat := hle c rfl
      exact ⟨show c.toNat = rs.length by omega, hwf⟩

/-! ### Every operation at its start, and every operation but `PARSE` in progress -/

/-- The errors R40 gives each instruction. -/
def errorsOf : Instr → List Err
  | .envHeader _ => [.malformedEnvelope]
  | .envData _ => [.overflow]
  | .envTrailer _ => [.malformedEnvelope]
  | .nibEnc => []
  | .nibDec => []
  | .pack => []
  | .unpack => []
  | .build => [.precondition]
  | .parse => [.malformedEnvelope, .overflow]
  | .bankSer => [.overCapacity, .precondition]
  | .bankPar => [.truncated]
  | .swap => [.precondition]

/-- What the start of operation `i` on `s` can leave: what its first position can make of the cleared state, or the
results of a whole `PARSE`. -/
inductive OpStart (i : Instr) (s : State) : State → Prop
  | advance {p : Running} {t : State} (hp : p.Inv) (h : Advance p (errorsOf i) s.beginOp t) : OpStart i s t
  | parsed {es : List Bytes} {r : ResultRegs} (hi : i = .parse) (hes : s.present = .envelopes es true)
      (h : parse es = .ok r) : OpStart i s ({ s.beginOp with res := r }.finish .empty)

/-- An operation that ends at once whatever stands on `in` passes through no position: any will do. -/
theorem opStart_finish {i : Instr} {s : State} {out : OutStream} (h : out.Sound) :
    OpStart i s (s.beginOp.finish out) :=
  .advance (p := .pack) trivial (.finish fun _ => h)

theorem opStart_parseBody {s t : State} (h : parseBody s.beginOp = .next t) : OpStart .parse s t := by
  obtain ⟨es, hes, rfl⟩ | ⟨-, rfl⟩ := State.withOperand_next h
  · cases hp : parse es with
    | ok r => exact .parsed rfl (InStream.asEnvelopes_whole.mp hes) hp
    | error x => exact .advance (p := .parse 0) trivial (.raise (parseFrom_error hp))
  · exact .advance (p := .parse 0) trivial (.run id rfl)

/-- If an operation answers a next state, the block was idle, and that state is one its start can leave. -/
theorem exec_opStart {i : Instr} {s t : State} (hi : i.isEnv = false) (h : exec i s = .next t) :
    s.running = none ∧ OpStart i s t := by
  cases i with
  | envHeader p => cases hi
  | envData p => cases hi
  | envTrailer p => cases hi
  | nibEnc =>
    change execNibEnc s = _ at h
    exact (State.startOp_next h).imp_right fun h => by cases h; exact opStart_finish trivial
  | nibDec =>
    change execNibDec s = _ at h
    exact (State.startOp_next h).imp_right fun h => by cases h; exact opStart_finish trivial
  | pack => exact (State.startOp_next h).imp_right fun h => .advance (p := .pack) trivial (advance_packBody h)
  | unpack => exact (State.startOp_next h).imp_right fun h => .advance (p := .unpack) trivial (advance_unpackBody h)
  | build =>
    exact (State.startOp_next h).imp_right fun h =>
      .advance (p := .build _ .emitHeader 0 []) (List.forall_mem_nil _) (advance_buildBody h)
  | parse => exact (State.startOp_next h).imp_right opStart_parseBody
  | bankSer =>
    exact (State.startOp_next h).imp_right fun h => .advance (p := .bankSer _) trivial (advance_bankSerBody h)
  | bankPar =>
    exact (State.startOp_next h).imp_right fun h =>
      .advance (p := .bankPar none 0 0 none []) (by simp [Running.Inv]) (advance_bankParBody h)
  | swap => exact (State.startOp_next h).imp_right fun h => .advance (p := .swap _) trivial (advance_swapBody h)

/-- A running operation other than `PARSE` advances from its position. -/
theorem step_advance {p : Running} {s t : State} (hp : p.isParse = false) (hr : s.running = some p)
    (hs : s.start = false) (h : step s = .next t) : ∃ errs, Advance p errs s t := by
  have hfetch : fetch s = resume p s := fetch_running hr hs
  cases p with
  | pack => exact ⟨_, advance_packBody ((step_other hfetch).symm.trans h)⟩
  | unpack => exact ⟨_, advance_unpackBody ((step_other hfetch).symm.trans h)⟩
  | swap w => exact ⟨_, advance_swapBody ((step_other hfetch).symm.trans h)⟩
  | bankSer pad => exact ⟨_, advance_bankSerBody ((step_other hfetch).symm.trans h)⟩
  | build off ph i em => exact ⟨_, advance_buildStep ((step_other hfetch).symm.trans h)⟩
  | parse j => cases hp
  | bankPar c pos k hdr rs => exact ⟨_, advance_bankParStep hr ((step_other hfetch).symm.trans h)⟩

/-- What a step can do: nothing; end a reserved code; start an operation; advance one that is no `PARSE`; or, in a
`PARSE`, end it or take its next envelope. -/
inductive StepKind (s : State) : State → Prop
  | wait : StepKind s s
  | illegal : StepKind s s.illegalOp
  | start {i : Instr} {t : State} (hf : fetch s = .instr i) (h : OpStart i s t) : StepKind s t
  | advance {p : Running} {errs : List Err} {t : State} (hr : s.running = some p) (hp : p.isParse = false)
      (h : Advance p errs s t) : StepKind s t
  | parseEnd {j : Nat} (hr : s.running = some (.parse j)) : StepKind s (s.finish .empty)
  | envelope {j : Nat} {e : Bytes} (hr : s.running = some (.parse j)) (hf : fetch s = fetchEnvelope j s)
      (he : s.inp.envelopeAt j = .got e) : StepKind s (s.afterEnvelope j (parseStep e j s.res))

/-- A step of an idle block with a request. -/
theorem stepKind_of_start {s t : State} (hr : s.running = none) (hs : s.start = true) (h : step s = .next t) :
    StepKind s t := by
  have hfetch : fetch s = fetchOp s := fetch_start hr hs
  cases hd : decode (.op s.op) with
  | ok i =>
    have hf : fetch s = .instr i := hfetch.trans (fetchOp_ok hd)
    rw [step_instr hf] at h
    exact .start hf (exec_opStart (isEnv_of_decode_op hd) h).2
  | error x =>
    rw [step_other (hfetch.trans (fetchOp_error hd))] at h
    cases h
    exact .illegal

theorem Running.eq_parse_of_isParse {p : Running} (h : p.isParse = true) : ∃ j, p = .parse j := by
  cases p with
  | parse j => exact ⟨j, rfl⟩
  | _ => cases h

/-- A step of a block that runs an operation. -/
theorem stepKind_of_running {s t : State} {p : Running} (hr : s.running = some p) (hs : s.start = false)
    (h : step s = .next t) : StepKind s t := by
  cases hp : p.isParse with
  | false =>
    obtain ⟨errs, h⟩ := step_advance hp hr hs h
    exact .advance hr hp h
  | true =>
    obtain ⟨j, rfl⟩ := Running.eq_parse_of_isParse hp
    obtain ⟨e, he, rfl⟩ | rfl | rfl := step_parse_next hr hs h
    · exact .envelope hr (fetch_running hr hs) he
    · exact .parseEnd hr
    · exact .wait

/-- If a step answers a next state, it did one of these things. -/
theorem step_kind {s t : State} (h : step s = .next t) : StepKind s t := by
  cases hr : s.running with
  | none =>
    cases hs : s.start with
    | false =>
      rw [step_other (r := .next s) (by simp [fetch, hr, hs])] at h
      cases h
      exact .wait
    | true => exact stepKind_of_start hr hs h
  | some p =>
    cases hs : s.start with
    | false => exact stepKind_of_running hr hs h
    | true =>
      rw [step_other (r := .fault .startWhileRunning) (by simp [fetch, hr, hs])] at h
      cases h

end Sys2Proof.Machine
end

section
/-! The machine's invariant: it holds at reset and every step keeps it (O8, O9). -/

namespace Sys2Proof.Machine

/-- Fit to be worked on by an operation: what `State.Inv` asks of the registers, and nothing delivered yet (R42, R59).
-/
structure State.Ready (b : State) : Prop where
  res_valid : b.res.Valid
  status_legal : b.status.toNat ≤ 6
  info_ok : b.status = 0 → b.errInfo = 0
  out_empty : b.out = .empty
  not_done : b.done = false

section
variable {b : State} (hb : b.Ready)
include hb

theorem State.Ready.setRes {r : ResultRegs} (hr : r.Valid) : { b with res := r }.Ready :=
  { hb with res_valid := hr }

/-- Delivering a sound result keeps the invariant. -/
theorem State.Ready.finish {out : OutStream} (ho : out.Sound) : (b.finish out).Inv where
  len_valid := hb.res_valid.len
  off_valid := hb.res_valid.off
  csum_valid := hb.res_valid.csum
  acc_bound := hb.res_valid.acc
  status_legal := Nat.zero_le _
  info_ok _ := rfl
  error_hides _ hne := absurd rfl hne
  running_hides hne := absurd rfl hne
  only_parse := nofun
  out_safe es h := by cases h; exact ho
  out_bank c h := by cases h; exact ho
  running_inv := nofun

/-- Going to a sound position keeps the invariant, if nothing but a `PARSE` has written the result registers. -/
theorem State.Ready.run {w : Running} (hw : w.Inv) (hres : w.isParse = false → b.res = ResultRegs.cleared) :
    { b with running := some w }.Inv where
  len_valid := hb.res_valid.len
  off_valid := hb.res_valid.off
  csum_valid := hb.res_valid.csum
  acc_bound := hb.res_valid.acc
  status_legal := hb.status_legal
  info_ok := hb.info_ok
  error_hides := nofun
  running_hides _ := ⟨hb.out_empty, hb.not_done⟩
  only_parse r hr hp := by cases hr; exact hres hp
  out_safe es h := nomatch hb.out_empty.symm.trans h
  out_bank c h := nomatch hb.out_empty.symm.trans h
  running_inv r hr := by cases hr; exact hw

end

/-- Taking an error establishes the invariant from any state (R240). -/
theorem State.inv_raise (x : Exn) (b : State) : (b.raise x).Inv where
  len_valid := rfl
  off_valid := rfl
  csum_valid := rfl
  acc_bound := Nat.zero_le _
  status_legal := x.err.code_le
  info_ok h := absurd h x.err.code_ne_ok
  error_hides _ _ := ⟨rfl, rfl⟩
  running_hides hne := absurd rfl hne
  only_parse := nofun
  out_safe := nofun
  out_bank := nofun
  running_inv := nofun

/-- Whatever an operation makes of a state fit to be worked on keeps the invariant. -/
theorem Advance.inv {p : Running} {errs : List Err} {b t : State} (h : Advance p errs b t) (hb : b.Ready)
    (hp : p.Inv) (hres : p.isParse = false → b.res = ResultRegs.cleared) : t.Inv := by
  cases h with
  | finish ho => exact hb.finish (ho hp)
  | raise _ => exact State.inv_raise _ _
  | run hw hkind => exact hb.run (hw hp) fun hf => hres (hkind ▸ hf)

section
variable {s : State} (hs : s.Inv)
include hs

theorem State.Inv.res_valid : s.res.Valid :=
  ⟨hs.len_valid, hs.off_valid, hs.csum_valid, hs.acc_bound⟩

/-- A start clears what an earlier operation left (R42, R272). -/
theorem State.Inv.ready_beginOp : s.beginOp.Ready :=
  ⟨ResultRegs.cleared_valid, hs.status_legal, hs.info_ok, rfl, rfl⟩

theorem State.Inv.ready_of_running {p : Running} (hr : s.running = some p) : s.Ready :=
  have ⟨hout, hdone⟩ := hs.running_hides (by simp [hr])
  ⟨hs.res_valid, hs.status_legal, hs.info_ok, hout, hdone⟩

theorem OpStart.inv {i : Instr} {t : State} (h : OpStart i s t) : t.Inv := by
  cases h with
  | advance hp h => exact h.inv hs.ready_beginOp hp fun _ => rfl
  | parsed _ _ hes => exact (hs.ready_beginOp.setRes (parse_valid hes)).finish trivial

/-- The step of one envelope keeps the invariant. -/
theorem State.Inv.afterEnvelope {j : Nat} {e : Bytes} (hr : s.running = some (.parse j)) :
    (s.afterEnvelope j (parseStep e j s.res)).Inv := by
  cases hp : parseStep e j s.res with
  | ok r => exact ((hs.ready_of_running hr).setRes (parseStep_valid hp hs.res_valid)).run trivial nofun
  | error x => exact State.inv_raise x s

end

/-- Settles O9, by the kinds of step: each works on a state fit for it and ends in a result, an error or a sound
position. -/
theorem everyStepKeepsTheInvariant : Obligations.EveryStepKeepsTheInvariant := by
  intro s t hs h
  cases step_kind h with
  | wait => exact hs
  | illegal => exact State.inv_raise _ _
  | start _ h => exact h.inv hs
  | advance hr hp h => exact h.inv (hs.ready_of_running hr) (hs.running_inv _ hr) fun _ => hs.only_parse _ hr hp
  | parseEnd hr => exact (hs.ready_of_running hr).finish trivial
  | envelope hr _ _ => exact hs.afterEnvelope hr

/-- Settles O8: reset shows nothing and holds nothing. -/
theorem resetMeetsTheInvariant : Obligations.ResetMeetsTheInvariant where
  len_valid := rfl
  off_valid := rfl
  csum_valid := rfl
  acc_bound := Nat.zero_le _
  status_legal := Nat.zero_le _
  info_ok _ := rfl
  error_hides _ hne := absurd rfl hne
  running_hides hne := absurd rfl hne
  only_parse := nofun
  out_safe := nofun
  out_bank := nofun
  running_inv := nofun

end Sys2Proof.Machine
end

section
/-! What operations and steps leave unchanged, and the errors an instruction can end in (O46, O50, O51, O53, O55). -/

namespace Sys2Proof.Machine

/-- What no step writes: the `ARG_*` and `CFG_*` registers and the `op` code (R42, R43). -/
def KeepsArgs (s t : State) : Prop := SameArgs s t ∧ SameConfig s t ∧ t.op = s.op

theorem KeepsArgs.refl (s : State) : KeepsArgs s s :=
  ⟨⟨rfl, rfl, rfl, rfl, rfl⟩, ⟨rfl, rfl, rfl⟩, rfl⟩

section
variable {p : Running} {errs : List Err} {b t : State} (h : Advance p errs b t)
include h

theorem Advance.keepsArgs : KeepsArgs b t := by
  cases h <;> exact KeepsArgs.refl b

/-- The result registers are as they were, or an error has cleared them (R240). -/
theorem Advance.res : t.res = b.res ∨ t.res = ResultRegs.cleared := by
  cases h with
  | finish _ => exact .inl rfl
  | raise _ => exact .inr rfl
  | run _ _ => exact .inl rfl

theorem Advance.ports : t.start = b.start ∧ t.present = b.present ∧ t.inp = b.inp := by
  cases h <;> exact ⟨rfl, rfl, rfl⟩

/-- While the operation stays in progress nothing but its position changes (R59). -/
theorem Advance.running (ht : t.running ≠ none) :
    t.out = b.out ∧ t.done = b.done ∧ t.status = b.status ∧ t.errInfo = b.errInfo := by
  cases h with
  | finish _ => exact absurd rfl ht
  | raise _ => exact absurd rfl ht
  | run _ _ => exact ⟨rfl, rfl, rfl, rfl⟩

/-- `done` rises when the operation ends (assumption log 7). -/
theorem Advance.done_iff (hb : b.done = false) : t.done = true ↔ t.running = none := by
  cases h with
  | finish _ => exact iff_of_true rfl rfl
  | raise _ => exact iff_of_true rfl rfl
  | run _ _ => simp [hb]

/-- An operation that has ended has no error, or one of those it can raise (R42, R240). -/
theorem Advance.status (ht : t.running = none) : t.status = statusOk ∨ ∃ e ∈ errs, t.status = e.code := by
  cases h with
  | finish _ => exact .inl rfl
  | raise hx => exact .inr ⟨_, hx, rfl⟩
  | run _ _ => cases ht

end

section
variable {i : Instr} {s t : State} (h : OpStart i s t)
include h

theorem OpStart.keepsArgs : KeepsArgs s t := by
  cases h with
  | advance _ h => exact h.keepsArgs
  | parsed _ _ _ => exact KeepsArgs.refl s

theorem OpStart.res (hi : i ≠ .parse) : t.res = ResultRegs.cleared := by
  cases h with
  | advance _ h => exact h.res.elim id id
  | parsed hp _ _ => exact absurd hp hi

theorem OpStart.ports : t.start = false ∧ t.present = .empty ∧ t.inp = s.present := by
  cases h with
  | advance _ h => exact h.ports
  | parsed _ _ _ => exact ⟨rfl, rfl, rfl⟩

theorem OpStart.running (ht : t.running ≠ none) :
    t.out = .empty ∧ t.done = false ∧ t.status = s.status ∧ t.errInfo = s.errInfo := by
  cases h with
  | advance _ h => exact h.running ht
  | parsed _ _ _ => exact absurd rfl ht

theorem OpStart.done_iff : t.done = true ↔ t.running = none := by
  cases h with
  | advance _ h => exact h.done_iff rfl
  | parsed _ _ _ => exact iff_of_true rfl rfl

theorem OpStart.status (ht : t.running = none) : t.status = statusOk ∨ ∃ e ∈ errorsOf i, t.status = e.code := by
  cases h with
  | advance _ h => exact h.status ht
  | parsed _ _ _ => exact .inl rfl

end

theorem State.afterEnvelope_keepsArgs (j : Nat) (r : Except Exn ResultRegs) (s : State) :
    KeepsArgs s (s.afterEnvelope j r) := by
  cases r <;> exact KeepsArgs.refl s

/-- While a `PARSE` stays in progress its envelopes change the position and the result registers only. -/
theorem State.afterEnvelope_running {j : Nat} {r : Except Exn ResultRegs} {s : State}
    (ht : (s.afterEnvelope j r).running ≠ none) :
    (s.afterEnvelope j r).out = s.out ∧ (s.afterEnvelope j r).done = s.done ∧
      (s.afterEnvelope j r).status = s.status ∧ (s.afterEnvelope j r).errInfo = s.errInfo := by
  cases r with
  | ok r => exact ⟨rfl, rfl, rfl, rfl⟩
  | error x => exact absurd rfl ht

/-- Settles O46: what the start of an operation can leave, clause by clause. -/
theorem operationFrame : Obligations.OperationFrame := by
  intro i s t hi h
  obtain ⟨-, h⟩ := exec_opStart hi h
  obtain ⟨hargs, hconfig, hop⟩ := h.keepsArgs
  obtain ⟨hstart, hpresent, hinp⟩ := h.ports
  refine ⟨hargs, hconfig, hop, h.res, fun ht => ?_, hstart, hpresent, hinp, h.done_iff⟩
  obtain ⟨hout, -, hstatus, hinfo⟩ := h.running ht
  exact ⟨hout, hstatus, hinfo⟩

/-- Settles O50: no kind of step writes them. -/
theorem everyStepLeavesTheArguments : Obligations.EveryStepLeavesTheArguments := by
  intro s t h
  cases step_kind h with
  | wait => exact KeepsArgs.refl s
  | illegal => exact KeepsArgs.refl s
  | start _ h => exact h.keepsArgs
  | advance _ _ h => exact h.keepsArgs
  | parseEnd _ => exact KeepsArgs.refl s
  | envelope _ _ _ => exact s.afterEnvelope_keepsArgs _ _

/-- Settles O55: a step that leaves an operation running has only moved its position, or started it. -/
theorem runningOperationShowsNothing : Obligations.RunningOperationShowsNothing := by
  intro s t hs h ht
  cases step_kind h with
  | wait => exact ⟨(hs.running_hides ht).1, (hs.running_hides ht).2, rfl, rfl⟩
  | illegal => exact absurd rfl ht
  | start _ h => exact h.running ht
  | advance hr _ h =>
    obtain ⟨hout, hdone⟩ := hs.running_hides (by simp [hr])
    exact hout ▸ hdone ▸ h.running ht
  | parseEnd _ => exact absurd rfl ht
  | envelope hr _ _ =>
    obtain ⟨hout, hdone⟩ := hs.running_hides (by simp [hr])
    exact hout ▸ hdone ▸ State.afterEnvelope_running ht

/-- An envelope command that ends its `PARSE` has raised an error (R160 to R162). -/
theorem envCommand_status {f : Nat → ResultRegs → Except Exn ResultRegs} {e : Err} {s t : State}
    (hf : ∀ j r x, f j r = .error x → x.err = e) (h : s.envCommand f = .next t) (ht : t.running = none) :
    t.status = e.code := by
  obtain ⟨j, -, ⟨r, -, rfl⟩ | ⟨x, hx, rfl⟩⟩ := State.envCommand_next h
  · cases ht
  · simp [hf j _ x hx]

/-- An instruction that leaves the block idle has completed, which only an operation does, or has raised one of its
errors (R40). -/
theorem exec_status {i : Instr} {s t : State} (h : exec i s = .next t) (ht : t.running = none) :
    (i.isEnv = false ∧ t.status = statusOk) ∨ ∃ e ∈ errorsOf i, t.status = e.code := by
  cases hi : i.isEnv with
  | false => exact ((exec_opStart hi h).2.status ht).imp_left fun hok => ⟨rfl, hok⟩
  | true =>
    refine .inr ?_
    cases i with
    | envHeader p => exact ⟨_, .head _, envCommand_status (fun _ _ _ => headerEffect_error) h ht⟩
    | envData p => exact ⟨_, .head _, envCommand_status (fun _ _ _ => dataEffect_error) h ht⟩
    | envTrailer p => exact ⟨_, .head _, envCommand_status (fun _ _ _ => trailerEffect_error) h ht⟩
    | _ => cases hi

/-- Settles O51: the codes of each instruction's errors, and that of success for an operation. -/
theorem errorsOfEachOperation : Obligations.ErrorsOfEachOperation := by
  intro i s t h ht
  have hstatus := exec_status h ht
  cases i <;> simpa [Instr.isEnv, errorsOf, statusOk, Err.code] using hstatus

/-- A `SWAP` that ends at once ends alike on states that differ in `STATUS` and `ERRINFO` alone. -/
theorem swapBody_of_ended {w : BitVec 3} {b t : State} (h : swapBody w b = .next t) (ht : t.running = none)
    (status : BitVec 4) (info : Nat) : swapBody w { b with status := status, errInfo := info } = .next t := by
  cases hw : swapCheck w.toNat with
  | error x => exact (swapBody_error hw _).trans ((swapBody_error hw b).symm.trans h)
  | ok u =>
    rw [swapBody_ok hw] at h ⊢
    exact withOperand_of_ended h ht _

/-- Settles O53: an operation that ends at once had its whole operand; its start and its end write all that an earlier
operation left. -/
theorem earlierOperationsLeaveNoTrace : Obligations.EarlierOperationsLeaveNoTrace := by
  intro i s t stream out done res status info hi hr h ht
  have hr' : { s with inp := stream, out, done, res, status, errInfo := info }.running = none := hr
  cases i with
  | envHeader p => cases hi
  | envData p => cases hi
  | envTrailer p => cases hi
  | nibEnc => exact (exec_nibEnc_idle hr').trans ((exec_nibEnc_idle hr).symm.trans h)
  | nibDec => exact (exec_nibDec_idle hr').trans ((exec_nibDec_idle hr).symm.trans h)
  | pack => exact (exec_pack_idle hr').trans (withOperand_of_ended ((exec_pack_idle hr).symm.trans h) ht _)
  | unpack => exact (exec_unpack_idle hr').trans (withOperand_of_ended ((exec_unpack_idle hr).symm.trans h) ht _)
  | build => exact (exec_build_idle hr').trans (withOperand_of_ended ((exec_build_idle hr).symm.trans h) ht _)
  | parse => exact (exec_parse_idle hr').trans (withOperand_of_ended ((exec_parse_idle hr).symm.trans h) ht _)
  | bankSer =>
    exact (exec_bankSer_idle hr').trans (withOperand_of_ended ((exec_bankSer_idle hr).symm.trans h) ht _)
  | bankPar =>
    exact (exec_bankPar_idle hr').trans (withOperand_of_ended ((exec_bankPar_idle hr).symm.trans h) ht _)
  | swap => exact (exec_swap_idle hr').trans (swapBody_of_ended ((exec_swap_idle hr).symm.trans h) ht _ _)

end Sys2Proof.Machine
end

section
/-! `PARSE`: the step at an envelope, the fold, and what sets the valid bits (O10, O14, O29, O52). -/

namespace Sys2Proof.Machine

/-- `parse_step` of an envelope that `PARSE` ignores leaves the result registers as they are (R108). -/
theorem parseStep_ignored {e : Bytes} (h : ignored e = true) (j : Nat) (r : ResultRegs) :
    parseStep e j r = .ok r := by
  cases hc : classify e with
  | skip => simp [parseStep, hc]
  | unknown c => simp [parseStep, hc]
  | _ => simp [ignored, hc] at h

/-- The fold from index `j` on is the monadic fold over the envelopes with their indices from `j` on (R155). -/
theorem parseFrom_eq_foldlM (es : List Bytes) (j : Nat) (r : ResultRegs) :
    parseFrom es j r = (es.zipIdx j).foldlM (fun r ej => parseStep ej.1 ej.2 r) r := by
  induction es generalizing j r with
  | nil => rfl
  | cons e es ih =>
    simp only [parseFrom, List.zipIdx_cons, List.foldlM_cons]
    cases parseStep e j r with
    | ok r' => exact ih (j + 1) r'
    | error x => rfl

/-- A bit of the result registers that only the envelopes of one kind touch is set by such an envelope at the position
of a running `PARSE`, or by a `PARSE` of a whole list that holds one. -/
theorem bit_set_by {bit : ResultRegs → Bool} {own : Bytes → Prop} (hclear : bit ResultRegs.cleared = false)
    (hown : ∀ e j r r', parseStep e j r = .ok r' → ¬ own e → bit r = false → bit r' = false) {s t : State}
    (h0 : bit s.res = false) (h : step s = .next t) (h1 : bit t.res = true) :
    (∃ j e, fetch s = fetchEnvelope j s ∧ s.inp.envelopeAt j = .got e ∧ own e) ∨
      (fetch s = .instr .parse ∧ ∃ es, s.present = .envelopes es true ∧ ∃ e ∈ es, own e) := by
  have hnot {r : ResultRegs} (hr : bit r = false) : t.res ≠ r := fun he => by simp [he, hr] at h1
  cases step_kind h with
  | wait => exact absurd rfl (hnot h0)
  | illegal => exact absurd rfl (hnot hclear)
  | start hf hop =>
    cases hop with
    | advance _ ha => exact absurd (ha.res.elim id id) (hnot hclear)
    | @parsed es r hi hes hp =>
      refine .inr ⟨hi ▸ hf, es, hes, ?_⟩
      by_contra hnone
      have hbit : bit r = false := parseFrom_keeps
        (fun e he j r r' hstep => hown e j r r' hstep fun ho => hnone ⟨e, he, ho⟩) hp hclear
      exact hnot hbit rfl
  | advance _ _ ha => exact ha.res.elim (fun he => absurd he (hnot h0)) fun he => absurd he (hnot hclear)
  | parseEnd _ => exact absurd rfl (hnot h0)
  | @envelope j e _ hf he =>
    refine .inl ⟨j, e, hf, he, ?_⟩
    by_contra ho
    cases hp : parseStep e j s.res with
    | ok r => exact hnot (hown e j s.res r hp ho h0) (by simp [hp])
    | error x => exact hnot hclear (by simp [hp])

/-- Only a HEADER turns `HDR_V` on (R38). -/
theorem parseStep_hdrV {e : Bytes} {j : Nat} {r r' : ResultRegs} (h : parseStep e j r = .ok r')
    (hc : ¬ ∃ p, classify e = .header p) (hr : r.hdrV = false) : r'.hdrV = false := by
  cases parseStep_ok h with
  | same => exact hr
  | header hp => exact absurd ⟨_, hp⟩ hc
  | data _ => exact hr
  | trailer _ => exact hr

/-- Only a TRAILER turns `TRL_V` on (R38). -/
theorem parseStep_trlV {e : Bytes} {j : Nat} {r r' : ResultRegs} (h : parseStep e j r = .ok r')
    (hc : ¬ ∃ p, classify e = .trailer p) (hr : r.trlV = false) : r'.trlV = false := by
  cases parseStep_ok h with
  | same => exact hr
  | header _ => exact hr
  | data _ => exact hr
  | trailer hp => exact absurd ⟨_, hp⟩ hc

theorem headerPayloads_ne_nil {es : List Bytes} {e p : Bytes} (he : e ∈ es) (hc : classify e = .header p) :
    headerPayloads es ≠ [] :=
  List.ne_nil_of_mem (a := p) (List.mem_filterMap.mpr ⟨e, he, by simp only [hc]⟩)

theorem trailerPayloads_ne_nil {es : List Bytes} {e p : Bytes} (he : e ∈ es) (hc : classify e = .trailer p) :
    trailerPayloads es ≠ [] :=
  List.ne_nil_of_mem (a := p) (List.mem_filterMap.mpr ⟨e, he, by simp only [hc]⟩)

/-- Settles O52: each valid bit is a bit that only the envelopes of one kind touch. -/
theorem validBitsAreSetByTheirEnvelopesOnly : Obligations.ValidBitsAreSetByTheirEnvelopesOnly := by
  refine ⟨fun s t h0 h h1 => ?_, fun s t h0 h h1 => ?_⟩
  · obtain ⟨j, e, hf, he, p, hc⟩ | ⟨hf, es, hes, e, he, p, hc⟩ :=
      bit_set_by (bit := ResultRegs.hdrV) rfl (fun _ _ _ _ => parseStep_hdrV) h0 h h1
    · exact .inl ⟨p, hf.trans (fetchEnvelope_command he (by simp [decode, decodeEnvelope, hc]))⟩
    · exact .inr ⟨hf, es, hes, headerPayloads_ne_nil he hc⟩
  · obtain ⟨j, e, hf, he, p, hc⟩ | ⟨hf, es, hes, e, he, p, hc⟩ :=
      bit_set_by (bit := ResultRegs.trlV) rfl (fun _ _ _ _ => parseStep_trlV) h0 h h1
    · exact .inl ⟨p, hf.trans (fetchEnvelope_command he (by simp [decode, decodeEnvelope, hc]))⟩
    · exact .inr ⟨hf, es, hes, trailerPayloads_ne_nil he hc⟩

/-- Settles O29: `PARSE` is the fold from index 0 and the cleared registers. -/
theorem parseIsTheFoldOfParseStep : Obligations.ParseIsTheFoldOfParseStep :=
  fun es => parseFrom_eq_foldlM es 0 ResultRegs.cleared

/-- Settles O10: the sequencer fetches the decoded operation, and the decoded command of the next envelope. -/
theorem stepRunsTheDecodedInstruction : Obligations.StepRunsTheDecodedInstruction := by
  refine ⟨fun s i hr hs hd => ?_, fun s i j es eos e hr hs hinp he hd => ?_⟩
  · exact step_instr ((fetch_start hr hs).trans (fetchOp_ok hd))
  · have hgot : s.inp.envelopeAt j = .got e := hinp ▸ InStream.envelopeAt_of_getElem? he
    exact step_instr ((fetch_running hr hs).trans (fetchEnvelope_command hgot hd))

/-- Settles O14: `parse_step` of an ignored envelope changes nothing, so the step only moves on. -/
theorem skippedEnvelopeOnlyAdvancesThePosition : Obligations.SkippedEnvelopeOnlyAdvancesThePosition := by
  intro s j es eos e hr hs hinp he hign
  have hgot : s.inp.envelopeAt j = .got e := hinp ▸ InStream.envelopeAt_of_getElem? he
  rw [step_parse_envelope hr hs hgot, parseStep_ignored hign, State.afterEnvelope_ok]

end Sys2Proof.Machine
end

section
/-! How the positions of a running `BANK.PAR` and of a running `BUILD` move (O43, O56). -/

namespace Sys2Proof.Machine

theorem step_bankPar {s : State} {c : Option Byte} {pos k : Nat} {hdr : Option RecHeader} {rs : List SampleRecord}
    (hr : s.running = some (.bankPar c pos k hdr rs)) (hs : s.start = false) :
    step s = bankParStep c pos k hdr rs s := step_other (fetch_running hr hs)

theorem step_build {s : State} {offset : U32} {ph : BuildPhase} {i : Nat} {em : List Bytes}
    (hr : s.running = some (.build offset ph i em)) (hs : s.start = false) :
    step s = buildStep offset ph i em s := step_other (fetch_running hr hs)

/-- A read that leaves the operation running has moved it on by bytes that are there, or left it where it was. -/
theorem withRead_running {s t : State} {b : Bytes} {eob : Bool} {pos n : Nat} {go : Bytes → Running} {w : Running}
    (h : s.withRead (s.inp.readAt pos n) pos go = .next t) (hinp : s.inp = .block b eob)
    (ht : t.running = some w) : (pos + n ≤ b.length ∧ ∃ d, w = go d) ∨ s.running = some w := by
  obtain ⟨d, hd, rfl⟩ | ⟨-, rfl⟩ | ⟨-, rfl⟩ := State.withRead_next h
  · exact .inl ⟨(InStream.readAt_got hd).2 b eob hinp, d, by simpa using ht.symm⟩
  · cases ht
  · exact .inr ht

/-- Settles O43: a step of a running `BANK.PAR` reads bytes that are there, or waits. -/
theorem bankParCursorStaysInTheBuffer : Obligations.BankParCursorStaysInTheBuffer := by
  intro s t b eob c c' pos k pos' k' hdr hdr' rs rs' hs hinp hr hpos h ht
  rw [step_bankPar hr hs] at h
  have hstay (hw : s.running = some (.bankPar c' pos' k' hdr' rs')) :
      pos ≤ pos' ∧ pos' ≤ b.length ∧ k ≤ k' ∧ k' ≤ k + 1 := by
    rw [hr] at hw
    cases hw
    exact ⟨le_rfl, hpos, le_rfl, Nat.le_succ _⟩
  match c, hdr with
  | none, hdr =>
    rw [bankParStep_count] at h
    obtain ⟨hle, d, hw⟩ | hw := withRead_running h hinp ht
    · cases hw; omega
    · exact hstay hw
  | some c, some hd =>
    rw [bankParStep_data] at h
    obtain ⟨hle, d, hw⟩ | hw := withRead_running h hinp ht
    · cases hw; omega
    · exact hstay hw
  | some c, none =>
    by_cases hk : k < c.toNat
    · rw [bankParStep_header pos k rs s hk] at h
      obtain ⟨hle, d, hw⟩ | hw := withRead_running h hinp ht
      · cases hw; omega
      · exact hstay hw
    · rw [bankParStep_end pos k rs s hk] at h
      cases h
      cases ht

/-- Settles O56: a `BUILD` whose buffer is not whole stays where it is, and each advance of the others goes forward. -/
theorem buildPositionMovesForward : Obligations.BuildPositionMovesForward := by
  intro s t off off' ph ph' i i' em em' hr hs h ht
  rw [step_build hr hs] at h
  obtain ⟨b, hb, rfl⟩ | ⟨hpending, rfl⟩ := State.withOperand_next h
  · cases ph with
    | emitHeader =>
      cases hc : buildCheck b with
      | ok u =>
        rw [buildAdvance_header_ok hc] at ht
        cases ht
        exact ⟨rfl, by decide, nofun, nofun⟩
      | error x =>
        rw [buildAdvance_header_error hc] at ht
        cases ht
    | emitData =>
      by_cases hlen : b.length ≤ Config.chunk * i
      · rw [buildAdvance_data_end hlen] at ht
        cases ht
        exact ⟨rfl, by decide, nofun, fun _ _ => ⟨b, InStream.asBlock_whole.mp hb, hlen, rfl⟩⟩
      · rw [buildAdvance_data_more hlen] at ht
        cases ht
        exact ⟨rfl, le_rfl, fun _ _ _ => ⟨rfl, by simp⟩, fun _ hne => absurd rfl hne⟩
    | emitTrailer =>
      cases ht
      exact ⟨rfl, by decide, nofun, nofun⟩
    | done => cases ht
  · cases ht
    exact ⟨rfl, le_rfl, fun _ _ hne => absurd hpending hne, fun hd hne => absurd hd hne⟩

end Sys2Proof.Machine
end

section
/-! An operation whose operand comes late ends as it does when started with the whole operand (O57 to O60). -/

namespace Sys2Proof.Machine

@[simp] theorem State.settle_running (r : Except Exn OutStream) (s : State) : (s.settle r).running = none := by
  cases r <;> rfl

@[simp] theorem State.settle_start (r : Except Exn OutStream) (s : State) : (s.settle r).start = s.start := by
  cases r <;> rfl

@[simp] theorem State.settleParse_running (r : Except Exn ResultRegs) (s : State) :
    (s.settleParse r).running = none := by
  cases r <;> rfl

/-- What an operation ends in does not depend on the position it ends from. -/
theorem State.settle_of_running (r : Except Exn OutStream) (w : Option Running) (s : State) :
    { s with running := w }.settle r = s.settle r := by
  cases r <;> rfl

/-- What a `PARSE` ends in does not depend on its position, nor on the result registers it has written so far. -/
theorem State.settleParse_of_running (r : Except Exn ResultRegs) (res : ResultRegs) (w : Option Running) (s : State) :
    { s with res := res, running := w }.settleParse r = s.settleParse r := by
  cases r <;> rfl

/-- A block of which nothing or a part has come is not whole yet. -/
theorem asBlock_pending {part : InStream} (h : part = .empty ∨ ∃ b, part = .block b false) :
    part.asBlock = .pending := by
  obtain rfl | ⟨b, rfl⟩ := h <;> rfl

/-- A list of which nothing or a part has come is not whole yet. -/
theorem asEnvelopes_pending {part : InStream} (h : part = .empty ∨ ∃ es, part = .envelopes es false) :
    part.asEnvelopes = .pending := by
  obtain rfl | ⟨es, rfl⟩ := h <;> rfl

/-- The state of the operation that `s` starts with operand `o`, at position `w`. -/
def State.startedAt (w : Running) (o : InStream) (s : State) : State :=
  { { s with present := o }.beginOp with running := some w }

/-- An operation whose operand is not whole waits at its first position. -/
theorem exec_of_pending {α : Type} {i : Instr} {s : State} {part : InStream} {operand : Presented α} {w : Running}
    {go : α → State}
    (hexec : exec i { s with present := part } = { s with present := part }.beginOp.withOperand operand w go)
    (hpending : operand = .pending) : exec i { s with present := part } = .next (s.startedAt w part) := by
  rw [hexec, hpending]
  rfl

section
variable {i : Instr} {s : State} {part whole : InStream} {w : Running}

/-- An operation that waits at `w` for the rest of its operand ends late in what the position `w` leads to. -/
theorem finishesLate_of_steps {u : State} {n : Nat}
    (hpart : exec i { s with present := part } = .next (s.startedAt w part))
    (hwhole : exec i { s with present := whole } = .next u) (hu : u.running = none)
    (hsteps : steps n (s.startedAt w whole) = .next u) : FinishesLate i part whole n s :=
  ⟨s.startedAt w part, u, hpart, nofun, hwhole, hu, hsteps⟩

/-- An operation that only waits for its operand, and then ends with what a function of it gives, ends late in one
step. -/
theorem finishesLate_of_withOperand {α : Type} (read : InStream → Presented α) (f : α → Except Exn OutStream) {a : α}
    (hexec : ∀ o, exec i { s with present := o } =
      { s with present := o }.beginOp.withOperand (read o) w fun a => { s with present := o }.beginOp.settle (f a))
    (hresume : ∀ b : State, resume w b = .other (b.withOperand (read b.inp) w fun a => b.settle (f a)))
    (hpart : read part = .pending) (hwhole : read whole = .whole a) : FinishesLate i part whole 1 s := by
  have hwaiting : read (s.startedAt w whole).inp = .whole a := hwhole
  have hstep : step (s.startedAt w whole) = .next ({ s with present := whole }.beginOp.settle (f a)) := by
    rw [step_other ((fetch_running (p := w) rfl rfl).trans (hresume _)), hwaiting, State.withOperand_whole]
    exact congrArg _ (State.settle_of_running _ _ _)
  refine finishesLate_of_steps (exec_of_pending (hexec part) hpart) ?_ (State.settle_running _ _) (steps_cons hstep rfl)
  rw [hexec, hwhole, State.withOperand_whole]

end

/-- Settles O57: the four operations that only wait for their operand. -/
theorem lateOperandGivesTheSameResult : Obligations.LateOperandGivesTheSameResult := by
  intro s part b c hr hpart
  have hidle (o : InStream) : { s with present := o }.running = none := hr
  have hpending : part.asBlock = .pending := asBlock_pending hpart
  refine ⟨?_, ?_, fun h1 h4 => ?_, ?_⟩
  · exact finishesLate_of_withOperand InStream.asBlock (fun d => .ok (.block (pack d)))
      (fun o => exec_pack_idle (hidle o)) (fun _ => rfl) hpending rfl
  · exact finishesLate_of_withOperand InStream.asBlock (fun d => .ok (.block (unpack d)))
      (fun o => exec_unpack_idle (hidle o)) (fun _ => rfl) hpending rfl
  · have hw : swapCheck s.argWidth.toNat = .ok () := swapCheck_ok h1 h4
    exact finishesLate_of_withOperand (w := .swap s.argWidth) InStream.asBlock
      (fun d => .ok (.block (swapWords s.argWidth.toNat d)))
      (fun o => (exec_swap_idle (hidle o)).trans (swapBody_ok hw _))
      (fun b => congrArg Fetch.other (swapBody_ok hw b)) hpending rfl
  · exact finishesLate_of_withOperand (w := .bankSer s.argPad) InStream.asBank
      (fun c => (bankSer Config.capacity c s.argPad).map .block)
      (fun o => exec_bankSer_idle (hidle o)) (fun _ => rfl) rfl rfl

/-- The head of what is left of a list from index `i` on, and what is left after it. -/
theorem getElem?_of_drop_eq_cons {α : Type} {l rest : List α} {i : Nat} {a : α} (h : l.drop i = a :: rest) :
    l[i]? = some a ∧ l.drop (i + 1) = rest := by
  rw [← List.head?_drop, ← List.tail_drop, h]
  exact ⟨rfl, rfl⟩

/-! ### `PARSE`, envelope by envelope -/

/-- A running `PARSE` at the head of `rest` ends in what the fold over `rest` gives. -/
theorem steps_parse {es rest : List Bytes} {s : State} {j : Nat} (hr : s.running = some (.parse j))
    (hs : s.start = false) (hinp : s.inp = .envelopes es true) (hrest : es.drop j = rest) :
    steps (rest.length + 1) s = .next (s.settleParse (parseFrom rest j s.res)) := by
  induction rest generalizing s j with
  | nil =>
    have hnone : es[j]? = none := List.getElem?_eq_none (List.drop_eq_nil_iff.mp hrest)
    have hend : s.inp.envelopeAt j = .ended := by simp [hinp, InStream.envelopeAt, hnone]
    exact steps_cons (step_parse_ended hr hs hend) rfl
  | cons e rest ih =>
    obtain ⟨hsome, hdrop⟩ := getElem?_of_drop_eq_cons hrest
    have hgot : s.inp.envelopeAt j = .got e := hinp ▸ InStream.envelopeAt_of_getElem? hsome
    have hstep := step_parse_envelope hr hs hgot
    simp only [parseFrom]
    cases hp : parseStep e j s.res with
    | ok r =>
      rw [hp] at hstep
      rw [List.length_cons, steps_cons hstep (ih rfl hs hinp hdrop)]
      exact congrArg _ (State.settleParse_of_running _ _ _ _)
    | error x =>
      rw [hp] at hstep
      exact steps_cons hstep (steps_idle _ rfl hs)

/-- Settles O58: the positions from 0 on lead to the fold over the whole list. -/
theorem parseStepByStepAgrees : Obligations.ParseStepByStepAgrees := by
  intro s part es hr hpart
  have hidle (o : InStream) : { s with present := o }.running = none := hr
  refine finishesLate_of_steps (w := .parse 0)
    (exec_of_pending (exec_parse_idle (hidle part)) (asEnvelopes_pending hpart)) (exec_parse_idle (hidle _))
    (State.settleParse_running (parse es) _) ?_
  rw [steps_parse (rest := es) rfl rfl rfl rfl]
  exact congrArg _ (State.settleParse_of_running _ _ _ _)

/-! ### `BUILD`, phase by phase -/

/-- No slice is left from index `i` on exactly when the sequence ends before (R51). -/
theorem slices_drop_eq_nil {k i : Nat} {s : Bytes} (hk : 0 < k) :
    (slices k s).drop i = [] ↔ s.length ≤ k * i := by
  rw [List.drop_eq_nil_iff, slices_length, Nat.div_le_iff_le_mul_add_pred hk]
  omega

/-- The next slice that is left is a piece of the sequence (R51). -/
theorem slice_of_getElem? {k i : Nat} {s c : Bytes} (h : (slices k s)[i]? = some c) :
    c = (s.drop (k * i)).take k := by
  obtain ⟨hlt, -⟩ := List.getElem?_eq_some_iff.mp h
  rw [slices_length] at hlt
  exact Option.some.inj (h.symm.trans (slices_getElem? hlt))

section
variable {b : State} {d : Bytes} (hs : b.start = false) (hinp : b.inp = .block d true)
include hs hinp

/-- A running `BUILD` with its flat buffer whole advances. -/
theorem step_build_whole {offset : U32} {ph : BuildPhase} {i : Nat} {em : List Bytes} :
    step { b with running := some (.build offset ph i em) } =
      .next (buildAdvance Config.crc offset ph i em d { b with running := some (.build offset ph i em) }) := by
  have hstep := step_build (s := { b with running := some (.build offset ph i em) }) rfl hs
  have hwhole : b.inp.asBlock = .whole d := InStream.asBlock_whole.mpr hinp
  rw [hstep, buildStep, hwhole, State.withOperand_whole]

/-- A running `BUILD` at chunk `i` emits the chunks that are left, then the TRAILER, and ends. -/
theorem steps_build_data {offset : U32} {i : Nat} {em : List Bytes} {rest : List Bytes}
    (hrest : (slices Config.chunk d).drop i = rest) :
    steps (rest.length + 3) { b with running := some (.build offset .emitData i em) } =
      .next (b.finish (.envelopes (em ++ rest.map dataEnvelope ++ [trailerEnvelope (Config.crc d)]))) := by
  induction rest generalizing i em with
  | nil =>
    have hlen : d.length ≤ Config.chunk * i := (slices_drop_eq_nil (by decide)).mp hrest
    have hstep := step_build_whole hs hinp (offset := offset) (ph := .emitData) (i := i) (em := em)
    rw [buildAdvance_data_end hlen] at hstep
    simpa using steps_cons hstep (steps_cons (step_build_whole hs hinp) (steps_cons (step_build_whole hs hinp) rfl))
  | cons c rest ih =>
    obtain ⟨hsome, hdrop⟩ := getElem?_of_drop_eq_cons hrest
    have hmore : ¬ d.length ≤ Config.chunk * i := by
      rw [← slices_drop_eq_nil (by decide), hrest]
      nofun
    have hstep := step_build_whole hs hinp (offset := offset) (ph := .emitData) (i := i) (em := em)
    rw [buildAdvance_data_more hmore, ← slice_of_getElem? hsome] at hstep
    simpa [Nat.add_right_comm] using steps_cons hstep (ih hdrop)

/-- A `BUILD` at its first position ends in what the whole operation gives. -/
theorem steps_build {offset : U32} :
    steps ((d.length + 255) / 256 + 4) { b with running := some (.build offset .emitHeader 0 []) } =
      .next (b.settle ((build Config.crc offset d).map .envelopes)) := by
  have h1 := step_build_whole hs hinp (offset := offset) (ph := .emitHeader) (i := 0) (em := [])
  rw [build_eq]
  cases hb : buildCheck d with
  | ok u =>
    rw [buildAdvance_header_ok hb] at h1
    have hdata := steps_build_data hs hinp (offset := offset) (i := 0)
      (em := [] ++ [headerEnvelope (BitVec.ofNat 32 d.length) offset]) rfl
    have hn : ((slices Config.chunk d).drop 0).length = (d.length + 255) / 256 := by simp [Config.chunk]
    rw [hn] at hdata
    exact steps_cons h1 hdata
  | error x =>
    rw [buildAdvance_header_error hb] at h1
    exact steps_cons h1 (steps_idle _ rfl hs)

end

/-- Settles O59: the first position leads to what the whole operation gives. -/
theorem buildStepByStepAgrees : Obligations.BuildStepByStepAgrees := by
  intro s part b hr hpart
  have hidle (o : InStream) : { s with present := o }.running = none := hr
  exact finishesLate_of_steps (exec_of_pending (exec_build_idle (hidle part)) (asBlock_pending hpart))
    (exec_build_idle (hidle _)) (State.settle_running _ _) (steps_build rfl rfl)

/-! ### `BANK.PAR`, read by read -/

section
variable {b : State} {d : Bytes} (hinp : b.inp = .block d true)
include hinp

/-- A read within a whole buffer moves the position on. -/
theorem withRead_whole_ok {pos n : Nat} {r : Bytes} {go : Bytes → Running} {w : Option Running}
    (hm : memRead d pos n = .ok r) :
    { b with running := w }.withRead (b.inp.readAt pos n) pos go = .next { b with running := some (go r) } := by
  simp [State.withRead, hinp, InStream.readAt, hm]

/-- A read past the end of a whole buffer raises what `MemRead` raises. -/
theorem withRead_whole_error {pos n : Nat} {x : Exn} {go : Bytes → Running} {w : Option Running}
    (hm : memRead d pos n = .error x) :
    { b with running := w }.withRead (b.inp.readAt pos n) pos go = .next (b.raise x) := by
  obtain ⟨-, rfl⟩ := memRead_error.mp hm
  simp [State.withRead, hinp, InStream.readAt, hm, State.raise]

end

section
variable {b : State} {d : Bytes} (hs : b.start = false) (hinp : b.inp = .block d true)
include hs

/-- A running `BANK.PAR` makes its next read. -/
theorem step_bankPar_at {c : Option Byte} {pos k : Nat} {hdr : Option RecHeader} {rs : List SampleRecord} :
    step { b with running := some (.bankPar c pos k hdr rs) } =
      bankParStep c pos k hdr rs { b with running := some (.bankPar c pos k hdr rs) } :=
  step_bankPar (s := { b with running := some (.bankPar c pos k hdr rs) }) rfl hs

include hinp

/-- A running `BANK.PAR` with `n` records left ends in what reading them gives, within two reads for each and the end.
-/
theorem steps_bankPar_records {c : Byte} {n pos k : Nat} {rs : List SampleRecord} (hk : k + n = c.toNat) :
    steps (2 * n + 1) { b with running := some (.bankPar (some c) pos k none rs) } =
      .next (b.settle ((readRecords d n pos).map fun more => .bank { count := c, records := rs ++ more })) := by
  induction n generalizing pos k rs with
  | zero =>
    refine steps_cons (t := b.finish (.bank { count := c, records := rs })) ?_
      (by simp [steps, readRecords, Except.map])
    rw [step_bankPar_at hs, bankParStep_end _ _ _ _ (by omega)]
    rfl
  | succ n ih =>
    have hstep := step_bankPar_at hs (c := some c) (pos := pos) (k := k) (hdr := none) (rs := rs)
    rw [bankParStep_header _ _ _ _ (by omega)] at hstep
    cases hh : memRead d pos Config.recHdr with
    | error x =>
      rw [withRead_whole_error hinp hh] at hstep
      rw [readRecords_header_error hh]
      exact steps_cons hstep (steps_idle _ rfl hs)
    | ok h =>
      rw [withRead_whole_ok hinp hh] at hstep
      refine steps_cons (n := 2 * n + 1 + 1) hstep ?_
      have hstep' := step_bankPar_at hs (c := some c) (pos := pos + Config.recHdr) (k := k) (hdr := some (recHeader h))
        (rs := rs)
      rw [bankParStep_data] at hstep'
      cases hd : memRead d (pos + Config.recHdr) (recHeader h).length.toNat with
      | error x =>
        rw [withRead_whole_error hinp hd] at hstep'
        rw [readRecords_data_error hh hd]
        exact steps_cons hstep' (steps_idle _ rfl hs)
      | ok r =>
        rw [withRead_whole_ok hinp hd] at hstep'
        rw [steps_cons hstep' (ih (by omega)), readRecords_data_ok hh hd]
        cases readRecords d n (pos + Config.recHdr + (recHeader h).length.toNat) <;> simp [Except.map]

/-- A `BANK.PAR` at its first position ends in what the whole operation gives, within 512 steps: the count byte says at
most 255 records. -/
theorem steps_bankPar :
    steps 512 { b with running := some (.bankPar none 0 0 none []) } = .next (b.settle ((bankPar d).map .bank)) := by
  have hstep := step_bankPar_at hs (c := none) (pos := 0) (k := 0) (hdr := none) (rs := [])
  rw [bankParStep_count] at hstep
  cases hm : memRead d 0 1 with
  | error x =>
    rw [withRead_whole_error hinp hm] at hstep
    rw [bankPar_count_error hm]
    exact steps_cons hstep (steps_idle _ rfl hs)
  | ok r =>
    rw [withRead_whole_ok hinp hm] at hstep
    have hrecords := steps_bankPar_records hs hinp (c := byteAt r 0) (n := (byteAt r 0).toNat) (pos := 1) (k := 0)
      (rs := []) (by omega)
    have hcount : (byteAt r 0).toNat < 256 := (byteAt r 0).isLt
    have hsplit : 512 = (2 * (byteAt r 0).toNat + 1 + 1) + (510 - 2 * (byteAt r 0).toNat) := by omega
    rw [hsplit, steps_add _ _ (steps_cons hstep hrecords), bankPar_count_ok hm,
      steps_idle _ (by simp) (by simpa using hs)]
    cases readRecords d (byteAt r 0).toNat 1 <;> rfl

end

/-- Settles O60: the first position leads to what the whole operation gives. -/
theorem bankParStepByStepAgrees : Obligations.BankParStepByStepAgrees := by
  intro s part b hr hpart
  have hidle (o : InStream) : { s with present := o }.running = none := hr
  exact finishesLate_of_steps (exec_of_pending (exec_bankPar_idle (hidle part)) (asBlock_pending hpart))
    (exec_bankPar_idle (hidle _)) (State.settle_running _ _) (steps_bankPar rfl rfl)

end Sys2Proof.Machine
end

section
/-! A change of the `ARG_*` registers while an operation runs passes through the step (O54; 20_memory.md rule R71): the
positions of a running operation hold what it sampled, so each of them commutes with the change. -/

namespace Sys2Proof.Machine

/-- Values of the five `ARG_*` registers (R33). -/
structure ArgValues where
  offset : Option U32
  pad : Bool
  width : BitVec 3
  value : U32
  nib : Vector Byte 8

/-- The state with these values in its `ARG_*` registers. -/
def State.withArgs (a : ArgValues) (s : State) : State :=
  { s with argOffset := a.offset, argPad := a.pad, argWidth := a.width, argValue := a.value, argNib := a.nib }

/-- A step's answer with these values in the `ARG_*` registers of its next state, if it has one. -/
def withArgsNext (a : ArgValues) : Result → Result
  | .next t => .next (t.withArgs a)
  | .fault f => .fault f
  | .refused r => .refused r

section
variable (a : ArgValues) (s : State)

theorem State.finish_withArgs (out : OutStream) : (s.withArgs a).finish out = (s.finish out).withArgs a := rfl

theorem State.raise_withArgs (x : Exn) : (s.withArgs a).raise x = (s.raise x).withArgs a := rfl

theorem State.settle_withArgs (r : Except Exn OutStream) : (s.withArgs a).settle r = (s.settle r).withArgs a := by
  cases r with
  | ok out => exact s.finish_withArgs a out
  | error x => exact s.raise_withArgs a x

theorem State.afterEnvelope_withArgs (j : Nat) (r : Except Exn ResultRegs) :
    (s.withArgs a).afterEnvelope j r = (s.afterEnvelope j r).withArgs a := by
  cases r with
  | ok r => rfl
  | error x => exact s.raise_withArgs a x

/-- Going on with an operand commutes with the change when what it goes on with does. -/
theorem State.withOperand_withArgs {α : Type} (operand : Presented α) (w : Running) {go go' : α → State}
    (hgo : ∀ x, go' x = (go x).withArgs a) :
    (s.withArgs a).withOperand operand w go' = withArgsNext a (s.withOperand operand w go) := by
  cases operand with
  | whole x => exact congrArg Host.Outcome.next (hgo x)
  | pending => rfl
  | otherKind => rfl

theorem State.withRead_withArgs (r : Arrival) (addr : Nat) (go : Bytes → Running) :
    (s.withArgs a).withRead r addr go = withArgsNext a (s.withRead r addr go) := by
  cases r <;> rfl

theorem swapBody_withArgs (w : BitVec 3) : swapBody w (s.withArgs a) = withArgsNext a (swapBody w s) := by
  cases hw : swapCheck w.toNat with
  | error x => rw [swapBody_error hw, swapBody_error hw, State.raise_withArgs]; rfl
  | ok u =>
    rw [swapBody_ok hw, swapBody_ok hw]
    exact s.withOperand_withArgs a _ _ fun _ => s.finish_withArgs a _

theorem buildAdvance_withArgs (crc : Bytes → U32) (offset : U32) (ph : BuildPhase) (i : Nat) (em : List Bytes)
    (b : Bytes) :
    buildAdvance crc offset ph i em b (s.withArgs a) = (buildAdvance crc offset ph i em b s).withArgs a := by
  cases ph with
  | emitHeader =>
    cases hb : buildCheck b with
    | ok u => rw [buildAdvance_header_ok hb, buildAdvance_header_ok hb]; rfl
    | error x => rw [buildAdvance_header_error hb, buildAdvance_header_error hb, State.raise_withArgs]
  | emitData =>
    by_cases hb : b.length ≤ Config.chunk * i
    · rw [buildAdvance_data_end hb, buildAdvance_data_end hb]; rfl
    · rw [buildAdvance_data_more hb, buildAdvance_data_more hb]; rfl
  | emitTrailer => rfl
  | done => exact s.finish_withArgs a _

theorem bankParStep_withArgs (c : Option Byte) (pos k : Nat) (hdr : Option RecHeader) (rs : List SampleRecord) :
    bankParStep c pos k hdr rs (s.withArgs a) = withArgsNext a (bankParStep c pos k hdr rs s) := by
  match c, hdr with
  | none, hdr => exact s.withRead_withArgs a _ _ _
  | some c, some h => exact s.withRead_withArgs a _ _ _
  | some c, none =>
    by_cases hk : k < c.toNat
    · rw [bankParStep_header pos k rs _ hk, bankParStep_header pos k rs _ hk]
      exact s.withRead_withArgs a _ _ _
    · rw [bankParStep_end pos k rs _ hk, bankParStep_end pos k rs _ hk]
      rfl

end

/-- A request while an operation runs has no step (R246). -/
theorem step_busy {s : State} {p : Running} (hr : s.running = some p) (hs : s.start = true) :
    step s = .fault .startWhileRunning :=
  step_other (by simp [fetch, hr, hs])

section
variable {s : State} {p : Running} {j : Nat} (hs : s.start = false)
include hs

/-- A running `PARSE` whose list is open and has no more waits (R251). -/
theorem step_parse_waiting (hr : s.running = some (.parse j)) (he : s.inp.envelopeAt j = .waiting) :
    step s = .next s :=
  step_other ((fetch_running hr hs).trans (by simp [resume, fetchEnvelope, he]))

theorem step_parse_otherKind (hr : s.running = some (.parse j)) (he : s.inp.envelopeAt j = .otherKind) :
    step s = .fault .operandKind :=
  step_other ((fetch_running hr hs).trans (by simp [resume, fetchEnvelope, he]))

/-- The step of a running `PARSE` reads its position, its list and the result registers only. -/
theorem step_parse_withArgs (a : ArgValues) (hr : s.running = some (.parse j)) :
    step (s.withArgs a) = withArgsNext a (step s) := by
  have hr' : (s.withArgs a).running = some (.parse j) := hr
  have hs' : (s.withArgs a).start = false := hs
  cases he : s.inp.envelopeAt j with
  | got e =>
    rw [step_parse_envelope hr hs he, step_parse_envelope hr' hs' he, State.afterEnvelope_withArgs]
    rfl
  | ended => rw [step_parse_ended hr hs he, step_parse_ended hr' hs' he, State.finish_withArgs]; rfl
  | waiting => rw [step_parse_waiting hs hr he, step_parse_waiting hs' hr' he]; rfl
  | otherKind => rw [step_parse_otherKind hs hr he, step_parse_otherKind hs' hr' he]; rfl

/-- Resuming an operation commutes with a change of the `ARG_*` registers. -/
theorem step_resume_withArgs (a : ArgValues) (hr : s.running = some p) :
    step (s.withArgs a) = withArgsNext a (step s) := by
  have hfetch : fetch s = resume p s := fetch_running hr hs
  have hfetch' : fetch (s.withArgs a) = resume p (s.withArgs a) := fetch_running hr hs
  cases p with
  | parse j => exact step_parse_withArgs hs a hr
  | pack =>
    rw [step_other hfetch, step_other hfetch']
    exact s.withOperand_withArgs a _ _ fun _ => s.finish_withArgs a _
  | unpack =>
    rw [step_other hfetch, step_other hfetch']
    exact s.withOperand_withArgs a _ _ fun _ => s.finish_withArgs a _
  | swap w =>
    rw [step_other hfetch, step_other hfetch']
    exact swapBody_withArgs a s w
  | bankSer pad =>
    rw [step_other hfetch, step_other hfetch']
    exact s.withOperand_withArgs a _ _ fun _ => s.settle_withArgs a _
  | build offset ph i em =>
    rw [step_other hfetch, step_other hfetch']
    exact s.withOperand_withArgs a _ _ fun b => buildAdvance_withArgs a s _ offset ph i em b
  | bankPar c pos k hdr rs =>
    rw [step_other hfetch, step_other hfetch']
    exact bankParStep_withArgs a s c pos k hdr rs

end

/-- A step of a block that runs an operation commutes with a change of the `ARG_*` registers (R71). -/
theorem step_withArgs {s : State} (a : ArgValues) (hrun : s.running ≠ none) :
    step (s.withArgs a) = withArgsNext a (step s) := by
  obtain ⟨p, hr⟩ := Option.ne_none_iff_exists'.mp hrun
  cases hs : s.start with
  | true => rw [step_busy hr hs, step_busy (s := s.withArgs a) hr hs]; rfl
  | false => exact step_resume_withArgs hs a hr

/-- Settles O54: the step of a running operation commutes with any change of the `ARG_*` registers. -/
theorem argumentsAreSampledAtTheStart : Obligations.ArgumentsAreSampledAtTheStart := by
  intro s o p w v n hrun
  refine (step_withArgs ⟨o, p, w, v, n⟩ hrun).trans ?_
  cases step s <;> rfl

end Sys2Proof.Machine
end

section
/-! SUPPORT. What the decoder does with an envelope and with a reserved code, and the 40-bit number of an envelope
(30_encoding.md rules R80, R101, R108, R115). -/

namespace Sys2Proof.Machine

/-- Vendor header, command byte and payload decode by the command byte (R115, R157). -/
theorem decode_envelope (c : Byte) (p : Bytes) :
    decode (.envelope (envelope c p)) =
      if c = 0x77 then .ok (.envHeader p) else if c = 0x79 then .ok (.envData p)
      else if c = 0x7A then .ok (.envTrailer p) else .error (.unknownCommand c) := by
  simp only [decode, decodeEnvelope, classify_envelope]
  split_ifs <;> rfl

/-- What `classify` skips is no instruction (R108). -/
theorem decode_skip {e : Bytes} (h : classify e = .skip) : decode (.envelope e) = .error .skipped := by
  simp [decode, decodeEnvelope, h]

/-- A reserved `op` code names no operation (R101). -/
theorem decode_op_reserved : ∀ {c : BitVec 4}, c = 0x0 ∨ 0xA ≤ c.toNat → decode (.op c) = .error (.reservedOp c) := by
  decide

/-- Byte sequences of one length, read in base 256 after the numbers `m` and `n`, differ when the numbers or the
sequences do. -/
theorem foldl_base256_inj {a b : Bytes} (h : a.length = b.length) (m n : Nat) :
    a.foldl (fun n x => n * 256 + x.toNat) m = b.foldl (fun n x => n * 256 + x.toNat) n ↔ m = n ∧ a = b := by
  induction a generalizing b m n with
  | nil => simp [List.length_eq_zero_iff.mp h.symm]
  | cons x a ih =>
    cases b with
    | nil => cases h
    | cons y b =>
      have hx := x.isLt
      have hy := y.isLt
      have hdigit : m * 256 + x.toNat = n * 256 + y.toNat ↔ m = n ∧ x.toNat = y.toNat := by omega
      simp only [List.foldl_cons, ih (Nat.succ.inj h), hdigit, BitVec.toNat_inj, List.cons.injEq, and_assoc]

/-- The 40-bit numbers of two envelopes are equal exactly when their first five bytes are (R115). -/
theorem envelopeKey_inj {a b : Bytes} (ha : 5 ≤ a.length) (hb : 5 ≤ b.length) :
    envelopeKey a = envelopeKey b ↔ a.take 5 = b.take 5 := by
  have hlen : (a.take 5).length = (b.take 5).length := by simp [ha, hb]
  simp [envelopeKey, foldl_base256_inj hlen]

/-- An envelope has the 40-bit number of a command byte exactly when it is that command with the bytes from index 5
on as its payload (R115). -/
theorem envelopeKey_eq_iff {e : Bytes} (h : 5 ≤ e.length) (c : Byte) :
    envelopeKey e = envelopeKey (envelope c (e.drop 5)) ↔ envelope c (e.drop 5) = e := by
  rw [envelopeKey_inj h (by simp)]
  constructor
  · intro hk
    calc envelope c (e.drop 5) = (envelope c (e.drop 5)).take 5 ++ e.drop 5 := rfl
      _ = e := by rw [← hk, List.take_append_drop]
  · intro he
    rw [he]

end Sys2Proof.Machine
end

section
/-! The words of the instructions: decoder and encoder agree, the table's codes and 40-bit numbers, and a start with a
reserved code (O1, O2, O3, O4, O6, O11). -/

namespace Sys2Proof.Machine

/-- Settles O3, by the instructions: an envelope command is read back by its command byte, an operation by its code. -/
theorem decodeOfEncodeIsIdentity : Obligations.DecodeOfEncodeIsIdentity := by
  intro i
  cases i with
  | envHeader p => exact decode_envelope Config.cmdHeader p
  | envData p => exact decode_envelope Config.cmdData p
  | envTrailer p => exact decode_envelope Config.cmdTrailer p
  | nibEnc | nibDec | pack | unpack | build | parse | bankSer | bankPar | swap => rfl

/-- An operation-select code that decodes is the word of its operation (R100). -/
theorem encode_of_decode_op {c : BitVec 4} {i : Instr} (h : decode (.op c) = .ok i) : encode i = .op c := by
  simp only [decode, decodeOp] at h
  split at h <;> cases h <;> rfl

/-- An envelope that decodes is the word of its command (R80, R115). -/
theorem encode_of_decode_envelope {e : Bytes} {i : Instr} (h : decode (.envelope e) = .ok i) :
    encode i = .envelope e := by
  obtain ⟨hskip, -⟩ | ⟨c, p, rfl⟩ := classify_cases e
  · rw [decode_skip hskip] at h
    cases h
  · rw [decode_envelope] at h
    split_ifs at h with hc hc hc <;> cases h <;> rw [hc] <;> rfl

/-- Settles O4, by the kinds of word. -/
theorem encodeOfDecodeIsIdentity : Obligations.EncodeOfDecodeIsIdentity := by
  intro w i h
  cases w with
  | op c => exact encode_of_decode_op h
  | envelope e => exact encode_of_decode_envelope h

/-- Decoder and encoder are one relation between words and instructions. -/
theorem decode_eq_ok_iff {w : CodeWord} {i : Instr} : decode w = .ok i ↔ encode i = w :=
  ⟨encodeOfDecodeIsIdentity w i, fun h => h ▸ decodeOfEncodeIsIdentity i⟩

/-- An envelope of at least five bytes is the word of a command with the bytes from index 5 on as its payload exactly
when its 40-bit number is that of the command byte. -/
theorem envelopeKey_eq_iff_decode {e : Bytes} {c : Byte} {i : Instr} (h : 5 ≤ e.length)
    (hi : encode i = .envelope (envelope c (e.drop 5))) :
    envelopeKey e = envelopeKey (envelope c (e.drop 5)) ↔ decode (.envelope e) = .ok i := by
  rw [decode_eq_ok_iff, hi, CodeWord.envelope.injEq, envelopeKey_eq_iff h]

/-- Settles O6: the number of an `ENV` row fixes the five bytes, and a word that decodes is its instruction's own. -/
theorem tableKeysSelectTheEnvelopeCommands : Obligations.TableKeysSelectTheEnvelopeCommands := by
  intro e h
  refine ⟨envelopeKey_eq_iff_decode (c := Config.cmdHeader) h rfl,
    envelopeKey_eq_iff_decode (c := Config.cmdData) h rfl,
    envelopeKey_eq_iff_decode (c := Config.cmdTrailer) h rfl, fun hheader hdata htrailer => ?_⟩
  cases hd : decode (.envelope e) with
  | error r => exact ⟨r, rfl⟩
  | ok i =>
    have hword : encode i = .envelope e := decode_eq_ok_iff.mp hd
    cases i with
    | envHeader p => cases hword; exact absurd rfl hheader
    | envData p => cases hword; exact absurd rfl hdata
    | envTrailer p => cases hword; exact absurd rfl htrailer
    | nibEnc | nibDec | pack | unpack | build | parse | bankSer | bankPar | swap => cases hword

/-- Settles O1, by running the decoder on the nine codes. -/
theorem operationSelectCodesDecode : Obligations.OperationSelectCodesDecode :=
  ⟨rfl, rfl, rfl, rfl, rfl, rfl, rfl, rfl, rfl⟩

/-- Settles O2: the first three are the words of their commands, the fourth has another command byte, the last another
header. -/
theorem envelopeWordsDecode : Obligations.EnvelopeWordsDecode :=
  ⟨decodeOfEncodeIsIdentity (.envData _), decodeOfEncodeIsIdentity (.envTrailer _),
    decodeOfEncodeIsIdentity (.envHeader _), decode_envelope 0x78 [0x01], decode_skip rfl⟩

/-- Settles O11: the sequencer answers a reserved code with IllegalOp. -/
theorem reservedCodeEndsInIllegalOp : Obligations.ReservedCodeEndsInIllegalOp := by
  intro s hr hs hop
  have hfetch : fetch s = .other (.next s.illegalOp) :=
    (fetch_start hr hs).trans (fetchOp_error (decode_op_reserved hop))
  exact ⟨s.illegalOp, step_other hfetch, s.failed_raise _⟩

end Sys2Proof.Machine
end

section
/-! SUPPORT. The nibble codec: what its bytes hold, the value of a nibble field in base 16, and how many byte sequences
have one value (30_encoding.md rules R87, R104; 40_nibble_codec.md rules R120 to R122). -/

namespace Sys2Proof.Machine

/-! ### Nibbles -/

/-- The bytes with their high nibbles cleared (R121, R122). -/
def lowNibbles (b : Bytes) : Bytes := b.map fun x => x &&& 0x0F#8

@[simp] theorem lowNibbles_length (b : Bytes) : (lowNibbles b).length = b.length :=
  List.length_map _

theorem toNat_and_0x0F (x : Byte) : (x &&& 0x0F#8).toNat = x.toNat % 16 :=
  Nat.and_two_pow_sub_one_eq_mod x.toNat 4

theorem and_0x0F_eq_self_iff (x : Byte) : x &&& 0x0F#8 = x ↔ x.toNat ≤ 0x0F := by
  rw [← BitVec.toNat_inj, toNat_and_0x0F]
  omega

/-- Bytes without high nibbles, and no others, are left as they are. -/
theorem lowNibbles_eq_self_iff (b : Bytes) : lowNibbles b = b ↔ ∀ x ∈ b, x.toNat ≤ 0x0F := by
  calc lowNibbles b = b ↔ b.map (fun x => x &&& 0x0F#8) = b.map id := by rw [List.map_id, lowNibbles]
    _ ↔ ∀ x ∈ b, x.toNat ≤ 0x0F := by simp only [List.map_inj_left, id, and_0x0F_eq_self_iff]

/-- The nibble of a value above its lowest `k` bits, as a byte (R87). -/
theorem toNat_nibble (v : U32) (k : Nat) : (((v >>> k) &&& 0xF#32).setWidth 8).toNat = v.toNat >>> k % 16 := by
  have hmask : v.toNat >>> k &&& 15 = v.toNat >>> k % 16 := Nat.and_two_pow_sub_one_eq_mod _ 4
  rw [BitVec.toNat_setWidth, BitVec.toNat_and, BitVec.toNat_ushiftRight, BitVec.toNat_ofNat, hmask]
  omega

theorem nibenc_getElem? (v : U32) {i : Nat} (hi : i < 8) :
    (nibenc v)[i]? = some (((v >>> (4 * (7 - i))) &&& 0xF#32).setWidth 8) := by
  simp [nibenc, hi]

/-- Every byte of an encoded value is at most 0x0F (R120). -/
theorem nibenc_le (v : U32) : ∀ x ∈ nibenc v, x.toNat ≤ 0x0F := by
  refine List.forall_mem_map.mpr fun i _ => ?_
  rw [toNat_nibble]
  omega

/-! ### The value of a nibble field -/

/-- A nibble field is a number in base 16 (R104). -/
theorem nibbleValue_eq_ofDigits (b : Bytes) :
    nibbleValue b = Nat.ofDigits 16 ((lowNibbles b).map BitVec.toNat).reverse := by
  rw [Nat.ofDigits_eq_foldr, List.foldr_reverse, lowNibbles, List.map_map, List.foldl_map]
  simp only [Function.comp, toNat_and_0x0F, nibbleValue, Nat.add_comm, Nat.cast_id]

theorem lowNibbles_digit_lt (b : Bytes) : ∀ d ∈ ((lowNibbles b).map BitVec.toNat).reverse, d < 16 := by
  simp only [List.mem_reverse, lowNibbles, List.map_map, List.forall_mem_map, Function.comp, toNat_and_0x0F]
  omega

theorem nibbleValue_lt (b : Bytes) : nibbleValue b < 16 ^ b.length := by
  rw [nibbleValue_eq_ofDigits]
  simpa using Nat.ofDigits_lt_base_pow_length (by decide) (lowNibbles_digit_lt b)

/-- Fields of one length have one value exactly when their low nibbles agree. -/
theorem nibbleValue_inj {a b : Bytes} (h : a.length = b.length) :
    nibbleValue a = nibbleValue b ↔ lowNibbles a = lowNibbles b := by
  rw [nibbleValue_eq_ofDigits, nibbleValue_eq_ofDigits]
  constructor
  · intro hv
    have hdigits := Nat.ofDigits_inj_of_len_eq (by decide) (by simp [h]) (lowNibbles_digit_lt a)
      (lowNibbles_digit_lt b) hv
    exact List.map_injective_iff.mpr BitVec.toNat_injective (List.reverse_injective hdigits)
  · intro hl
    rw [hl]

theorem nibbleValue_cons (x : Byte) (b : Bytes) :
    nibbleValue (x :: b) = (x.toNat % 16) <<< (4 * b.length) + nibbleValue b := by
  have hpow : 2 ^ (4 * b.length) = 16 ^ b.length := pow_mul 2 4 _
  simp only [nibbleValue_eq_ofDigits, lowNibbles, List.map_cons, List.reverse_cons, Nat.ofDigits_append,
    Nat.ofDigits_singleton, List.length_reverse, List.length_map, toNat_and_0x0F, Nat.shiftLeft_eq, hpow]
  ring

/-- The value of a field as the sum of its shifted nibbles (R121). -/
theorem nibbleValue_eq_sum (b : Bytes) : nibbleValue b =
    ((List.range b.length).map fun i => ((byteAt b i).toNat % 16) <<< (4 * (b.length - 1 - i))).sum := by
  induction b with
  | nil => rfl
  | cons x b ih =>
    rw [nibbleValue_cons, ih, List.length_cons, List.range_succ_eq_map, List.map_cons, List.sum_cons, List.map_map]
    simp [Function.comp_def, byteAt, Nat.sub_sub, Nat.add_comm]

/-! ### Encoding and decoding -/

/-- One turn of the decoder's loop: shifting in a nibble is a step in base 16 (R121). -/
theorem ofNat_shiftIn_nibble (n : Nat) (x : Byte) :
    (BitVec.ofNat 32 n <<< 4) ||| (x &&& 0xF#8).setWidth 32 = BitVec.ofNat 32 (16 * n + x.toNat % 16) := by
  have hn : BitVec.ofNat 32 n <<< 4 = BitVec.ofNat 32 (n <<< 4) := BitVec.eq_of_toNat_eq (by simp [Nat.shiftLeft_eq])
  have hx : (x &&& 0xF#8).setWidth 32 = BitVec.ofNat 32 (x.toNat % 16) := by
    rw [← toNat_and_0x0F, BitVec.ofNat_toNat]
  have hor : n <<< 4 ||| x.toNat % 16 = 16 * n + x.toNat % 16 := by
    rw [← Nat.shiftLeft_add_eq_or_of_lt (by omega), Nat.shiftLeft_eq, mul_comm]
  rw [hn, hx, ← BitVec.ofNat_or, hor]

/-- The decoder computes the value of the field (R104, R121). -/
theorem nibdec_eq_ofNat (b : Bytes) (h : b.length = 8) : nibdec b h = BitVec.ofNat 32 (nibbleValue b) := by
  refine List.foldl_hom (BitVec.ofNat 32) fun n x => ?_
  exact ofNat_shiftIn_nibble n x

/-- Eight nibbles are 32 bits: the decoder loses none (R121). -/
theorem nibdec_toNat (b : Bytes) (h : b.length = 8) : (nibdec b h).toNat = nibbleValue b := by
  have hlt := nibbleValue_lt b
  rw [h] at hlt
  rw [nibdec_eq_ofNat, BitVec.toNat_ofNat]
  exact Nat.mod_eq_of_lt hlt

/-- The nibbles of a value are its digits in base 16 (R87). -/
theorem nibbleValue_nibenc (v : U32) : nibbleValue (nibenc v) = v.toNat := by
  have hv := v.isLt
  simp only [nibbleValue, nibenc, List.foldl_map, toNat_nibble]
  simp [List.range_succ, Nat.shiftRight_eq_div_pow]
  omega

theorem nibdec_nibenc (v : U32) (h : (nibenc v).length = 8) : nibdec (nibenc v) h = v :=
  BitVec.eq_of_toNat_eq ((nibdec_toNat _ h).trans (nibbleValue_nibenc v))

/-- Encoding a decoded field clears its high nibbles (R122). -/
theorem nibenc_nibdec (b : Bytes) (h : b.length = 8) : nibenc (nibdec b h) = lowNibbles b := by
  have hvalue : nibbleValue (nibenc (nibdec b h)) = nibbleValue b := by rw [nibbleValue_nibenc, nibdec_toNat]
  calc nibenc (nibdec b h) = lowNibbles (nibenc (nibdec b h)) := ((lowNibbles_eq_self_iff _).mpr (nibenc_le _)).symm
    _ = lowNibbles b := (nibbleValue_inj (by simp [h])).mp hvalue

theorem nibenc_injective : Function.Injective nibenc := by
  intro v w h
  rw [← BitVec.toNat_inj, ← nibbleValue_nibenc, h, nibbleValue_nibenc]

/-! ### The inputs of one value -/

/-- When every element of a list has `k` preimages, the list has `k ^ length` preimages, element by element. -/
theorem ncard_map_eq {α β : Type} {f : α → β} {k : Nat} {ys : List β}
    (hk : ∀ y ∈ ys, { x | f x = y }.ncard = k) : { xs : List α | xs.map f = ys }.ncard = k ^ ys.length := by
  induction ys with
  | nil => simp
  | cons y ys ih =>
    obtain ⟨hy, hys⟩ := List.forall_mem_cons.mp hk
    have hcons : { xs | xs.map f = y :: ys } =
        (fun p : α × List α => p.1 :: p.2) '' ({ x | f x = y } ×ˢ { xs | xs.map f = ys }) := by
      ext zs
      constructor
      · intro h
        obtain ⟨x, xs, rfl, hx, hxs⟩ := List.map_eq_cons_iff.mp h
        exact ⟨(x, xs), ⟨hx, hxs⟩, rfl⟩
      · rintro ⟨⟨x, xs⟩, ⟨hx, hxs⟩, rfl⟩
        exact List.map_eq_cons_iff.mpr ⟨x, xs, rfl, hx, hxs⟩
    have hinj : Function.Injective fun p : α × List α => p.1 :: p.2 :=
      fun p q h => Prod.ext_iff.mpr (List.cons.inj h)
    rw [hcons, Set.ncard_image_of_injective _ hinj, Set.ncard_prod, hy, ih hys, List.length_cons, pow_succ']

/-- Sixteen bytes have a given low nibble, one for each high nibble. -/
theorem ncard_and_0x0F_eq {y : Byte} (hy : y.toNat ≤ 0x0F) : { x : Byte | x &&& 0x0F#8 = y }.ncard = 16 := by
  have hrange : { x : Byte | x &&& 0x0F#8 = y } =
      Set.range fun n : Fin 16 => BitVec.ofNat 8 (16 * n + y.toNat) := by
    ext x
    simp only [Set.mem_ofPred_eq, Set.mem_range, ← BitVec.toNat_inj, toNat_and_0x0F, BitVec.toNat_ofNat]
    constructor
    · intro hx
      exact ⟨⟨x.toNat / 16, by omega⟩, by simp only; omega⟩
    · rintro ⟨n, hn⟩
      omega
  have hinj : Function.Injective fun n : Fin 16 => BitVec.ofNat 8 (16 * n + y.toNat) := by
    intro m n h
    simp only [← BitVec.toNat_inj, BitVec.toNat_ofNat] at h
    omega
  rw [hrange, ← Set.image_univ, Set.ncard_image_of_injective _ hinj, Set.ncard_univ, Nat.card_eq_fintype_card,
    Fintype.card_fin]

/-- The fields that decode to a value are those whose low nibbles encode it (R122). -/
theorem exists_nibdec_eq_iff (b : Bytes) (v : U32) :
    (∃ h : b.length = 8, nibdec b h = v) ↔ lowNibbles b = nibenc v := by
  constructor
  · rintro ⟨h, rfl⟩
    exact (nibenc_nibdec b h).symm
  · intro hb
    have h : b.length = 8 := by rw [← lowNibbles_length, hb, nibenc_length]
    exact ⟨h, nibenc_injective ((nibenc_nibdec b h).trans hb)⟩

/-- Each of the eight high nibbles is free (R122). -/
theorem ncard_nibdec_eq (v : U32) : { b : Bytes | ∃ h : b.length = 8, nibdec b h = v }.ncard = 16 ^ 8 := by
  have hcard := ncard_map_eq fun y hy => ncard_and_0x0F_eq (nibenc_le v y hy)
  rw [nibenc_length] at hcard
  simp only [exists_nibdec_eq_iff]
  exact hcard

end Sys2Proof.Machine
end

section
/-! The nibble codec's operations and laws (O15, O16, O17). -/

namespace Sys2Proof.Machine

/-- Settles O15: `NIB.ENC` ends at once with its bytes on `out`. -/
theorem nibEncGivesTheNibbles : Obligations.NibEncGivesTheNibbles := fun s hr =>
  ⟨rfl, nibenc s.argValue, nibenc_length _, fun _ hi => nibenc_getElem? _ hi, nibenc_le _, _, exec_nibEnc_idle hr,
    s.completed_finish _⟩

/-- Settles O16: `NIB.DEC` ends at once with the value of the field `ARG_NIB`, which is the sum of its shifted
nibbles. -/
theorem nibDecFoldsTheNibbles : Obligations.NibDecFoldsTheNibbles := by
  intro s hr
  have hlen : s.argNib.toList.length = 8 := s.argNib.length_toList
  have hsum := nibbleValue_eq_sum s.argNib.toList
  rw [hlen] at hsum
  exact ⟨rfl, s.argNibValue, (nibdec_toNat _ hlen).trans hsum, _, exec_nibDec_idle hr, s.completed_finish _⟩

/-- Settles O17: decoding undoes encoding, and encoding a decoded field clears its high nibbles. -/
theorem nibbleCodecLaws : Obligations.NibbleCodecLaws := by
  refine ⟨nibdec_nibenc, fun b h i _ => ?_, fun b h => ?_, fun _ _ h => nibenc_injective h, fun v => ?_,
    ncard_nibdec_eq⟩
  · rw [nibenc_nibdec, lowNibbles, List.getElem?_map]
  · rw [nibenc_nibdec, lowNibbles_eq_self_iff]
  · exact ⟨nibenc v, nibenc_length v, nibdec_nibenc v _⟩

end Sys2Proof.Machine
end

section
/-! SUPPORT. The bit-pack codec, byte by byte: what stands at each index of a sequence made slice by slice, of a packed
group and of an unpacked unit, and how long the results are (41_bitpack_codec.md rules R130, R131, R133 to R135). -/

namespace Sys2Proof.Machine

/-! ### Sequences made slice by slice -/

/-- The first slice and the slices of what follows it. -/
theorem slices_cons {k : Nat} {s : Bytes} (hk : 0 < k) (h0 : s ≠ []) :
    slices k s = s.take k :: slices k (s.drop k) := by
  rcases Nat.lt_or_ge s.length k with h | h
  · rw [slices_short h0 h.le, List.take_of_length_le h.le, List.drop_eq_nil_of_le h.le, slices_nil hk]
  · conv_lhs => rw [← List.take_append_drop k s]
    exact slices_append hk (List.length_take_of_le h)

/-- A cut between two slices cuts the list of slices. -/
theorem slices_append_of_mod {k : Nat} {a : Bytes} (hk : 0 < k) (ha : a.length % k = 0) (b : Bytes) :
    slices k (a ++ b) = slices k a ++ slices k b := by
  induction a using slices_induction hk with
  | nil => simp [slices_nil hk]
  | short s h0 hlt =>
    rw [Nat.mod_eq_of_lt hlt] at ha
    exact absurd (List.eq_nil_of_length_eq_zero ha) h0
  | full g s hg ih =>
    have hs : s.length % k = 0 := by simpa [hg] using ha
    rw [List.append_assoc, slices_append hk hg, slices_append hk hg, ih hs, List.cons_append]

/-- When every full slice gives `m` bytes, what slice `j` gives stands from index `m * j` on. -/
theorem flatMap_slices_getElem? {k m i j : Nat} {f : Bytes → Bytes} {s : Bytes} (hk : 0 < k)
    (hf : ∀ g, g.length = k → (f g).length = m) (hj : k * j < s.length) (hi : i < m) :
    ((slices k s).flatMap f)[m * j + i]? = (f ((s.drop (k * j)).take k))[i]? := by
  induction j generalizing s with
  | zero =>
    have h0 : s ≠ [] := List.ne_nil_of_length_pos (by omega)
    rw [slices_cons hk h0, List.flatMap_cons, Nat.mul_zero, Nat.mul_zero, Nat.zero_add, List.drop_zero]
    rcases Nat.lt_or_ge s.length k with h | h
    · rw [List.drop_eq_nil_of_le h.le, slices_nil hk, List.flatMap_nil, List.append_nil]
    · have hm := hf _ (List.length_take_of_le h)
      exact List.getElem?_append_left (by omega)
  | succ j ih =>
    rw [Nat.mul_succ] at hj
    have h0 : s ≠ [] := List.ne_nil_of_length_pos (by omega)
    have hm := hf (s.take k) (List.length_take_of_le (by omega))
    have hrest : k * j < (s.drop k).length := by rw [List.length_drop]; omega
    have hindex : m * (j + 1) + i - m = m * j + i := by rw [Nat.mul_succ]; omega
    rw [slices_cons hk h0, List.flatMap_cons, List.getElem?_append_right (by rw [hm, Nat.mul_succ]; omega), hm, hindex,
      ih hrest, List.drop_drop, Nat.mul_succ, Nat.add_comm]

/-! ### One group and one unit -/

/-- A data byte of a unit as it is unpacked: its high bit is set when bit `k` of the flag is (R131). -/
def mergeFlag (flag : Byte) (k : Nat) (x : Byte) : Byte :=
  if flag.getLsbD k then x ||| 0x80#8 else x

theorem getLsbD_mergeFlag_low (flag : Byte) (k : Nat) (x : Byte) {i : Nat} (hi : i < 7) :
    (mergeFlag flag k x).getLsbD i = x.getLsbD i := by
  have hbit : ∀ i, i < 7 → (0x80#8).getLsbD i = false := by decide
  unfold mergeFlag
  split
  · rw [BitVec.getLsbD_or, hbit i hi, Bool.or_false]
  · rfl

theorem getLsbD_mergeFlag_seven (flag : Byte) (k : Nat) (x : Byte) :
    (mergeFlag flag k x).getLsbD 7 = (x.getLsbD 7 || flag.getLsbD k) := by
  cases hflag : flag.getLsbD k <;> simp [mergeFlag, hflag]

theorem getLsbD_and_0x7F_low (x : Byte) {i : Nat} (hi : i < 7) : (x &&& 0x7F#8).getLsbD i = x.getLsbD i := by
  have hbit : ∀ i, i < 7 → (0x7F#8).getLsbD i = true := by decide
  rw [BitVec.getLsbD_and, hbit i hi, Bool.and_true]

theorem getLsbD_and_0x7F_seven (x : Byte) : (x &&& 0x7F#8).getLsbD 7 = false := by
  simp

/-- Two bytes are equal when their low seven bits and their high bits are. -/
theorem byte_ext {x y : Byte} (hlow : ∀ i, i < 7 → x.getLsbD i = y.getLsbD i) (hhigh : x.getLsbD 7 = y.getLsbD 7) :
    x = y := by
  refine BitVec.eq_of_getLsbD_eq fun i hi => ?_
  rcases Nat.lt_or_eq_of_le (Nat.le_of_lt_succ hi) with h | rfl
  · exact hlow i h
  · exact hhigh

/-- A byte that has its high bit set is not changed by merging a flag bit (R137). -/
theorem mergeFlag_eq_self {flag x : Byte} {k : Nat} (hx : x.getLsbD 7 = true) : mergeFlag flag k x = x := by
  refine byte_ext (fun i => getLsbD_mergeFlag_low flag k x) ?_
  rw [getLsbD_mergeFlag_seven, hx, Bool.true_or]

/-- Merging the high bit that was cleared gives the byte back (R132). -/
theorem mergeFlag_and_0x7F {flag x : Byte} {k : Nat} (h : flag.getLsbD k = x.getLsbD 7) :
    mergeFlag flag k (x &&& 0x7F#8) = x := by
  refine byte_ext (fun i hi => ?_) ?_
  · rw [getLsbD_mergeFlag_low _ _ _ hi, getLsbD_and_0x7F_low _ hi]
  · rw [getLsbD_mergeFlag_seven, getLsbD_and_0x7F_seven, h, Bool.false_or]

/-- Clearing the high bit undoes merging a flag bit into a byte without one. -/
theorem and_0x7F_mergeFlag {flag x : Byte} {k : Nat} (hx : x.getLsbD 7 = false) :
    mergeFlag flag k x &&& 0x7F#8 = x := by
  refine byte_ext (fun i hi => ?_) ?_
  · rw [getLsbD_and_0x7F_low _ hi, getLsbD_mergeFlag_low _ _ _ hi]
  · rw [getLsbD_and_0x7F_seven, hx]

/-- A byte below 128 has its high bit clear. -/
theorem getLsbD_seven_of_le {x : Byte} (h : x.toNat ≤ 127) : x.getLsbD 7 = false :=
  Nat.testBit_lt_two_pow (Nat.lt_succ_of_le h)

@[simp] theorem packGroup_getElem?_zero (g : Bytes) : (packGroup g)[0]? = some (packFlag g) := rfl

@[simp] theorem packGroup_getElem?_succ (g : Bytes) (k : Nat) :
    (packGroup g)[k + 1]? = g[k]?.map fun b => b &&& 0x7F#8 :=
  List.getElem?_map

/-- Byte `k` of an unpacked unit is byte `k` after the flag, merged with flag bit `k` (R131). -/
theorem unpackUnit_getElem? (u : Bytes) (k : Nat) :
    (unpackUnit u)[k]? = u[k + 1]?.map (mergeFlag (byteAt u 0) k) := by
  cases u with
  | nil => rfl
  | cons flag ds =>
    change (ds.zipIdx.map fun dk => mergeFlag flag dk.2 dk.1)[k]? = ds[k]?.map (mergeFlag flag k)
    simp [List.getElem?_map, List.getElem?_zipIdx, Function.comp_def]

theorem byteAt_of_getElem? {s : Bytes} {i : Nat} {x : Byte} (h : s[i]? = some x) : byteAt s i = x := by
  simp [byteAt, h]

theorem byteAt_of_length_le {s : Bytes} {i : Nat} (h : s.length ≤ i) : byteAt s i = 0 := by
  simp [byteAt, h]

theorem byteAt_take_drop {s : Bytes} {a n i : Nat} (h : i < n) : byteAt ((s.drop a).take n) i = byteAt s (a + i) := by
  simp [byteAt, h]

/-- Unpacking a packed group gives the group back (R132). -/
theorem unpackUnit_packGroup {g : Bytes} (hg : g.length ≤ 7) : unpackUnit (packGroup g) = g := by
  refine List.ext_getElem? fun k => ?_
  rw [unpackUnit_getElem?, packGroup_getElem?_succ, byteAt_of_getElem? (packGroup_getElem?_zero g)]
  cases hx : g[k]? with
  | none => rfl
  | some x =>
    have hk : k < 8 := by
      have := (List.getElem?_eq_some_iff.mp hx).1
      omega
    have hflag : (packFlag g).getLsbD k = x.getLsbD 7 := by
      rw [packFlag_getLsbD, byteAt_of_getElem? hx, decide_eq_true hk, Bool.true_and]
    exact congrArg some (mergeFlag_and_0x7F hflag)

/-- Only the flag bits of the data bytes present are examined (R137). -/
theorem unpackUnit_congr {f g : Byte} {ds : Bytes} (h : ∀ k, k < ds.length → f.getLsbD k = g.getLsbD k) :
    unpackUnit (f :: ds) = unpackUnit (g :: ds) := by
  refine List.ext_getElem? fun k => ?_
  rw [unpackUnit_getElem?, unpackUnit_getElem?, List.getElem?_cons_succ, List.getElem?_cons_succ]
  refine Option.map_congr fun x hx => ?_
  have hk := h k (List.getElem?_eq_some_iff.mp hx).1
  simp only [mergeFlag, byteAt, List.getD_cons_zero, hk]

/-! ### Whole sequences -/

/-- A whole number of groups is packed on its own (R138). -/
theorem pack_append_of_mod {a : Bytes} (ha : a.length % 7 = 0) (b : Bytes) : pack (a ++ b) = pack a ++ pack b := by
  simp only [pack, Config.group, slices_append_of_mod (by decide) ha, List.flatMap_append]

/-- A whole number of units is unpacked on its own (R138). -/
theorem unpack_append_of_mod {p : Bytes} (hp : p.length % 8 = 0) (q : Bytes) :
    unpack (p ++ q) = unpack p ++ unpack q := by
  simp only [unpack, Config.unit, slices_append_of_mod (by decide) hp, List.flatMap_append]

/-- A packed sequence has one flag byte more for each group (R133). -/
theorem packlen_eq (n : Nat) : packlen n = n + (n + 6) / 7 := by
  unfold packlen
  split <;> omega

/-- An unpacked sequence has one byte less for each unit (R134). -/
theorem unpacklen_eq (n : Nat) : unpacklen n = n - (n + 7) / 8 := by
  unfold unpacklen
  split <;> omega

theorem pack_length (x : Bytes) : (pack x).length = packlen x.length := by
  rw [packlen_eq]
  induction x using slices_induction (k := 7) (by decide) with
  | nil => simp
  | short s h0 hlt =>
    have hpos := List.length_pos_iff.mpr h0
    rw [pack_short h0 hlt.le, packGroup_length]
    omega
  | full g s hg ih =>
    rw [pack_append hg, List.length_append, List.length_append, packGroup_length, ih, hg]
    omega

theorem unpack_length (p : Bytes) : (unpack p).length = unpacklen p.length := by
  rw [unpacklen_eq]
  induction p using slices_induction (k := 8) (by decide) with
  | nil => simp
  | short s h0 hlt =>
    have hpos := List.length_pos_iff.mpr h0
    rw [unpack_short h0 hlt.le, unpackUnit_length]
    omega
  | full u s hu ih =>
    rw [unpack_append hu, List.length_append, List.length_append, unpackUnit_length, ih, hu]
    omega

theorem pack_getElem? {d : Bytes} {i j : Nat} (hj : 7 * j < d.length) (hi : i < 8) :
    (pack d)[8 * j + i]? = (packGroup ((d.drop (7 * j)).take 7))[i]? :=
  flatMap_slices_getElem? (by decide) (fun g hg => by rw [packGroup_length, hg]; rfl) hj hi

/-- Data byte `n` of a packed sequence (R130). -/
theorem pack_getElem?_data {d : Bytes} {n : Nat} {x : Byte} (h : d[n]? = some x) :
    (pack d)[8 * (n / 7) + 1 + n % 7]? = some (x &&& 0x7F#8) := by
  have hn := (List.getElem?_eq_some_iff.mp h).1
  have hmod : n % 7 < 7 := Nat.mod_lt n (by decide)
  rw [Nat.add_assoc, pack_getElem? (by omega) (by omega), Nat.add_comm 1, packGroup_getElem?_succ,
    List.getElem?_take_of_lt hmod, List.getElem?_drop, Nat.div_add_mod, h]
  rfl

/-- Flag byte `j` of a packed sequence (R88, R130). -/
theorem pack_getElem?_flag {d : Bytes} {j : Nat} (hj : 7 * j < d.length) : ∃ flag, (pack d)[8 * j]? = some flag ∧
    ∀ k, flag.getLsbD k = (decide (k < 7) && (byteAt d (7 * j + k)).getLsbD 7) := by
  refine ⟨_, pack_getElem? (i := 0) hj (by decide), fun k => ?_⟩
  rw [packFlag_getLsbD]
  by_cases hk : k < 7
  · have hk8 : k < 8 := by omega
    simp [hk, hk8, byteAt_take_drop]
  · simp [hk, byteAt_of_length_le (List.length_take_le _ _ |>.trans (Nat.le_of_not_lt hk))]

/-- Data byte `k` of unit `j` as it is unpacked (R131). -/
theorem unpack_getElem? {p : Bytes} {j k : Nat} {x : Byte} (hk : k < 7) (h : p[8 * j + 1 + k]? = some x) :
    (unpack p)[7 * j + k]? = some (mergeFlag (byteAt p (8 * j)) k x) := by
  have hlt := (List.getElem?_eq_some_iff.mp h).1
  have hunit : (unpack p)[7 * j + k]? = (unpackUnit ((p.drop (8 * j)).take 8))[k]? :=
    flatMap_slices_getElem? (k := 8) (by decide) (fun u hu => by rw [unpackUnit_length, hu]) (by omega) hk
  rw [hunit, unpackUnit_getElem?, byteAt_take_drop (by decide), List.getElem?_take_of_lt (by omega),
    List.getElem?_drop, Nat.add_comm k, ← Nat.add_assoc, h]
  rfl

theorem unpack_pack (x : Bytes) : unpack (pack x) = x := by
  induction x using slices_induction (k := 7) (by decide) with
  | nil => simp
  | short s h0 hlt =>
    rw [pack_short h0 hlt.le, unpack_short (by simp [packGroup]) (by rw [packGroup_length]; omega),
      unpackUnit_packGroup hlt.le]
  | full g s hg ih =>
    rw [pack_append hg, unpack_append (by rw [packGroup_length, hg]), unpackUnit_packGroup hg.le, ih]

/-! ### Canonical sequences (R135) -/

theorem canonical_pack (x : Bytes) : Canonical (pack x) := by
  have hlen := pack_length x
  rw [packlen_eq] at hlen
  have hsafe {i : Nat} {y : Byte} (h : (pack x)[i]? = some y) : y.toNat ≤ 127 :=
    Nat.le_of_lt_succ (sevenBitSafe_pack x y (List.mem_of_getElem? h))
  refine ⟨by omega, fun i y _ h => hsafe h, fun i y _ h => getLsbD_seven_of_le (hsafe h), ?_⟩
  intro i y k hi h hk h6
  obtain ⟨j, rfl⟩ := Nat.dvd_of_mod_eq_zero hi
  have hlt := (List.getElem?_eq_some_iff.mp h).1
  obtain ⟨flag, hflag, hbits⟩ := pack_getElem?_flag (d := x) (j := j) (by omega)
  obtain rfl : flag = y := Option.some.inj (hflag.symm.trans h)
  rw [hbits, byteAt_of_length_le (by omega)]
  simp

/-- A full unit at the head of a canonical sequence is canonical, and so is what follows it. -/
theorem Canonical.of_append {u s : Bytes} (hu : u.length = 8) (h : Canonical (u ++ s)) :
    Canonical u ∧ Canonical s := by
  obtain ⟨hlen, hdata, hseven, hflag⟩ := h
  have hhead {i : Nat} {x : Byte} (hx : u[i]? = some x) : (u ++ s)[i]? = some x := by
    rwa [List.getElem?_append_left (List.getElem?_eq_some_iff.mp hx).1]
  have htail (i : Nat) : (u ++ s)[i + 8]? = s[i]? := by
    rw [List.getElem?_append_right (by omega), hu, Nat.add_sub_cancel]
  rw [List.length_append, hu] at hlen hflag
  refine ⟨⟨by omega, fun i x hi hx => hdata i x hi (hhead hx), fun i x hi hx => hseven i x hi (hhead hx), ?_⟩,
    by omega, fun i x hi hx => hdata (i + 8) x (by omega) ((htail i).trans hx),
    fun i x hi hx => hseven (i + 8) x (by omega) ((htail i).trans hx),
    fun i x k hi hx hk => hflag (i + 8) x k (by omega) ((htail i).trans hx) (by omega)⟩
  intro i x k hi hx hk h6
  have := (List.getElem?_eq_some_iff.mp hx).1
  omega

section
variable {flag : Byte} {ds : Bytes} (hds : ds.length ≤ 7) (h : Canonical (flag :: ds))
include h

theorem Canonical.flag_clear {k : Nat} (hk : ds.length ≤ k) (h8 : k < 8) : flag.getLsbD k = false := by
  obtain ⟨-, -, hseven, hflag⟩ := h
  rcases Nat.lt_or_eq_of_le (Nat.le_of_lt_succ h8) with h7 | rfl
  · exact hflag 0 flag k rfl rfl (by rw [List.length_cons]; omega) (by omega)
  · exact hseven 0 flag rfl rfl

include hds

theorem Canonical.data_clear {k : Nat} {x : Byte} (hx : ds[k]? = some x) : x.getLsbD 7 = false := by
  obtain ⟨-, hdata, -, -⟩ := h
  have hk := (List.getElem?_eq_some_iff.mp hx).1
  exact getLsbD_seven_of_le (hdata (k + 1) x (by omega) hx)

/-- The flag of a canonical unit is the flag of what it unpacks to. -/
theorem packFlag_unpackUnit : packFlag (unpackUnit (flag :: ds)) = flag := by
  refine BitVec.eq_of_getLsbD_eq fun k hk => ?_
  rw [packFlag_getLsbD, decide_eq_true hk, Bool.true_and]
  cases hx : ds[k]? with
  | some x =>
    have hbyte : byteAt (unpackUnit (flag :: ds)) k = mergeFlag flag k x :=
      byteAt_of_getElem? (by rw [unpackUnit_getElem?, List.getElem?_cons_succ, hx]; rfl)
    rw [hbyte, getLsbD_mergeFlag_seven, h.data_clear hds hx, Bool.false_or]
  | none =>
    have hlen := List.getElem?_eq_none_iff.mp hx
    rw [byteAt_of_length_le (by simpa using hlen), h.flag_clear hlen hk]
    rfl

/-- A canonical unit is the packed form of what it unpacks to. -/
theorem packGroup_unpackUnit : packGroup (unpackUnit (flag :: ds)) = flag :: ds := by
  refine congrArg₂ List.cons (packFlag_unpackUnit hds h) (List.ext_getElem? fun k => ?_)
  rw [List.getElem?_map, unpackUnit_getElem?, List.getElem?_cons_succ]
  cases hx : ds[k]? with
  | none => rfl
  | some x => exact congrArg some (and_0x7F_mergeFlag (h.data_clear hds hx))

end

/-- A canonical sequence is the packed form of what it unpacks to. -/
theorem pack_unpack {p : Bytes} (h : Canonical p) : pack (unpack p) = p := by
  induction p using slices_induction (k := 8) (by decide) with
  | nil => simp
  | short s h0 hlt =>
    obtain ⟨flag, ds, rfl⟩ := List.exists_cons_of_ne_nil h0
    have hlone := h.1
    rw [List.length_cons] at hlt hlone
    have hunit : (unpackUnit (flag :: ds)).length = ds.length := unpackUnit_length _
    have hne : unpackUnit (flag :: ds) ≠ [] := List.ne_nil_of_length_pos (by omega)
    rw [unpack_short h0 hlt.le, pack_short hne (by omega), packGroup_unpackUnit (by omega) h]
  | full u s hu ih =>
    obtain ⟨hcu, hcs⟩ := h.of_append hu
    obtain ⟨flag, ds, rfl⟩ := List.exists_cons_of_length_eq_add_one hu
    rw [unpack_append hu, pack_append (by rw [unpackUnit_length, hu]),
      packGroup_unpackUnit (Nat.le_of_succ_le_succ hu.le) hcu, ih hcs]

end Sys2Proof.Machine
end

section
/-! The bit-pack codec's operations and laws (O18 to O25). -/

namespace Sys2Proof.Machine

/-- `PACK` of a whole block ends at once with the packed sequence on `out`. -/
theorem exec_pack_whole {s : State} {d : Bytes} (hr : s.running = none) (hp : s.present = .block d true) :
    exec .pack s = .next (s.beginOp.finish (.block (pack d))) := by
  have hwhole : s.beginOp.inp.asBlock = .whole d := InStream.asBlock_whole.mpr hp
  rw [exec_pack_idle hr, packBody, hwhole, State.withOperand_whole]

/-- `UNPACK` of a whole block ends at once with the unpacked sequence on `out`. -/
theorem exec_unpack_whole {s : State} {p : Bytes} (hr : s.running = none) (hp : s.present = .block p true) :
    exec .unpack s = .next (s.beginOp.finish (.block (unpack p))) := by
  have hwhole : s.beginOp.inp.asBlock = .whole p := InStream.asBlock_whole.mpr hp
  rw [exec_unpack_idle hr, unpackBody, hwhole, State.withOperand_whole]

/-- Settles O18: the bytes of `PACK` are the packed groups. -/
theorem packGivesThePackedGroups : Obligations.PackGivesThePackedGroups := by
  intro s d hr hp
  refine ⟨rfl, _, pack d, exec_pack_whole hr hp, s.completed_finish _, pack_length d, fun n x => pack_getElem?_data,
    fun j hj => ?_, fun x hx => Nat.le_of_lt_succ (sevenBitSafe_pack d x hx)⟩
  obtain ⟨flag, hflag, hbits⟩ := pack_getElem?_flag hj
  exact ⟨flag, hflag, fun k _ => hbits k⟩

/-- Settles O19: the bytes of `UNPACK` are the data bytes merged with their flag bits. -/
theorem unpackMergesTheFlagBits : Obligations.UnpackMergesTheFlagBits := fun s p hr hp =>
  ⟨rfl, _, unpack p, exec_unpack_whole hr hp, s.completed_finish _, unpack_length p, fun _ _ _ => unpack_getElem?⟩

/-- Settles O20, group by group. -/
theorem unpackOfPackIsIdentity : Obligations.UnpackOfPackIsIdentity :=
  unpack_pack

/-- Settles O21: each group adds one flag byte, so the length grows with every byte. -/
theorem packLengthLaw : Obligations.PackLengthLaw := by
  refine ⟨pack_length, fun m n h => ?_⟩
  rw [packlen_eq, packlen_eq]
  omega

/-- Settles O22: each unit loses its flag byte, and a lone flag byte is the one length `PACK` never gives. -/
theorem unpackLengthLaw : Obligations.UnpackLengthLaw := by
  refine ⟨unpack_length, fun n => ?_, fun n => ?_⟩
  · rw [packlen_eq, unpacklen_eq]
    omega
  · rw [packlen_eq, unpacklen_eq]
    split <;> omega

/-- Settles O23: `pack` undoes `unpack` on canonical sequences, and a lone flag byte unpacks like no byte at all. -/
theorem canonicalPackedSequences : Obligations.CanonicalPackedSequences := by
  refine ⟨canonical_pack, fun p => ⟨fun h => h ▸ canonical_pack _, pack_unpack⟩, fun p q hp hq h => ?_, [], [0x05],
    by decide⟩
  rw [← pack_unpack hp, h, pack_unpack hq]

/-- Settles O24: a unit is unpacked through the flag bits of its data bytes alone. -/
theorem nonCanonicalInputToUnpack : Obligations.NonCanonicalInputToUnpack := by
  refine ⟨fun p flag hp => ?_, fun x => (canonical_pack x).1, fun p ds q f g hp hds hq hfg => ?_,
    fun p i x hi hx h7 => ?_⟩
  · have hlone : unpack [flag] = [] := unpack_short (by simp) (by simp)
    rw [unpack_append_of_mod hp, hlone, List.append_nil]
  · have hunit (c : Byte) : unpack (p ++ c :: ds ++ q) = unpack p ++ (unpackUnit (c :: ds) ++ unpack q) := by
      rw [List.append_assoc, unpack_append_of_mod hp]
      rcases hq with h | rfl
      · rw [unpack_append (by rw [List.length_cons, h])]
      · rw [List.append_nil, unpack_nil, List.append_nil,
          unpack_short (List.cons_ne_nil c ds) (Nat.succ_le_succ hds)]
    rw [hunit, hunit, unpackUnit_congr hfg]
  · have hindex : 8 * (i / 8) + 1 + (i % 8 - 1) = i := by omega
    rw [unpack_getElem? (by omega) (hindex ▸ hx), mergeFlag_eq_self h7]

/-- Settles O25: both laws hold at a whole number of groups or units.  Packed apart, two single bytes have a flag byte
each; and what follows the 293 bytes of a full chunk is cut at other places, so that even the length is another. -/
theorem packingConcatenationLaws : Obligations.PackingConcatenationLaws := by
  refine ⟨fun a b h => pack_append_of_mod h b, fun p q h => unpack_append_of_mod h q, ⟨[0], [0], by decide⟩,
    List.replicate 256 0, [0], List.length_replicate, ?_, fun h => ?_⟩
  · rw [pack_length, List.length_replicate]
    rfl
  · have hlen := congrArg List.length h
    rw [unpack_length, List.length_append, List.length_append, pack_length, pack_length, List.length_replicate] at hlen
    exact absurd hlen (by decide)

end Sys2Proof.Machine
end

section
/-! SUPPORT. The effects of the envelope commands, an equation for each case (42_message_assembler.md rules R160 to R162,
R166), and what an envelope command does inside a `PARSE`. -/

namespace Sys2Proof.Machine

/-! ### The effects -/

section
variable {p : Bytes} {j : Nat} {r r' : ResultRegs}

/-- A HEADER payload of two nibble fields gives their values (R160). -/
theorem headerEffect_of_length (h : p.length = 16) : headerEffect p j r =
    .ok (r.setHeader (BitVec.ofNat 32 (nibbleValue (p.take 8))) (BitVec.ofNat 32 (nibbleValue (p.drop 8)))) := by
  rw [headerEffect, dif_pos h, nibdec_eq_ofNat, nibdec_eq_ofNat]

theorem headerEffect_of_length_ne (h : p.length ≠ 16) :
    headerEffect p j r = .error { err := .malformedEnvelope, info := j } :=
  dif_neg h

theorem headerEffect_eq_ok_iff : headerEffect p j r = .ok r' ↔ p.length = 16 ∧
    r.setHeader (BitVec.ofNat 32 (nibbleValue (p.take 8))) (BitVec.ofNat 32 (nibbleValue (p.drop 8))) = r' := by
  by_cases h : p.length = 16
  · rw [headerEffect_of_length h, Except.ok.injEq, and_iff_right h]
  · simp [headerEffect_of_length_ne h, h]

/-- A DATA payload for which `ACC` has room is unpacked and appended (R161). -/
theorem dataEffect_of_room (h : r.acc.length + (unpack p).length ≤ Config.bufMax) :
    dataEffect p j r = .ok (r.append (unpack p)) :=
  if_neg (Nat.not_lt.mpr h)

theorem dataEffect_of_no_room (h : Config.bufMax < r.acc.length + (unpack p).length) :
    dataEffect p j r = .error { err := .overflow, info := j } :=
  if_pos h

theorem dataEffect_eq_ok_iff : dataEffect p j r = .ok r' ↔
    r.acc.length + (unpack p).length ≤ Config.bufMax ∧ r.append (unpack p) = r' := by
  by_cases h : r.acc.length + (unpack p).length ≤ Config.bufMax
  · rw [dataEffect_of_room h, Except.ok.injEq, and_iff_right h]
  · simp [dataEffect_of_no_room (Nat.lt_of_not_le h), h]

/-- A TRAILER payload of one nibble field gives its value (R162). -/
theorem trailerEffect_of_length (h : p.length = 8) :
    trailerEffect p j r = .ok (r.setTrailer (BitVec.ofNat 32 (nibbleValue p))) := by
  rw [trailerEffect, dif_pos h, nibdec_eq_ofNat]

theorem trailerEffect_of_length_ne (h : p.length ≠ 8) :
    trailerEffect p j r = .error { err := .malformedEnvelope, info := j } :=
  dif_neg h

theorem trailerEffect_eq_ok_iff :
    trailerEffect p j r = .ok r' ↔ p.length = 8 ∧ r.setTrailer (BitVec.ofNat 32 (nibbleValue p)) = r' := by
  by_cases h : p.length = 8
  · rw [trailerEffect_of_length h, Except.ok.injEq, and_iff_right h]
  · simp [trailerEffect_of_length_ne h, h]

end

/-! ### An envelope command inside a `PARSE` -/

/-- The effect of an envelope command; an operation has none. -/
def envEffect : Instr → Nat → ResultRegs → Except Exn ResultRegs
  | .envHeader p => headerEffect p
  | .envData p => dataEffect p
  | .envTrailer p => trailerEffect p
  | _ => fun _ r => .ok r

theorem exec_eq_envCommand {i : Instr} (hi : i.isEnv = true) (s : State) : exec i s = s.envCommand (envEffect i) := by
  cases i with
  | envHeader p | envData p | envTrailer p => rfl
  | _ => cases hi

section
variable {f : Nat → ResultRegs → Except Exn ResultRegs} {s t : State} {j : Nat}

theorem State.envCommand_of_ok {r : ResultRegs} (hr : s.running = some (.parse j)) (hf : f j s.res = .ok r) :
    s.envCommand f = .next { s with res := r, running := some (.parse (j + 1)) } := by
  rw [State.envCommand_eq_afterEnvelope hr, hf, State.afterEnvelope_ok]

theorem State.envCommand_fails {x : Exn} (hr : s.running = some (.parse j)) (hf : f j s.res = .error x) :
    ∃ t, s.envCommand f = .next t ∧ Failed s t x.err.code x.info := by
  rw [State.envCommand_eq_afterEnvelope hr, hf, State.afterEnvelope_error]
  exact ⟨_, rfl, s.failed_raise_running x⟩

/-- An envelope command writes no argument and no port; and while its `PARSE` still runs, nothing but the position and
the result registers its effect gives (R156). -/
theorem State.envCommand_frame (h : s.envCommand f = .next t) :
    KeepsArgs s t ∧ t.start = s.start ∧ t.present = s.present ∧ t.inp = s.inp ∧ (t.running ≠ none →
      (t.out = s.out ∧ t.done = s.done ∧ t.status = s.status ∧ t.errInfo = s.errInfo) ∧
      ∃ j, f j s.res = .ok t.res) := by
  obtain ⟨j, -, ⟨r, hf, rfl⟩ | ⟨x, -, rfl⟩⟩ := State.envCommand_next h
  · exact ⟨KeepsArgs.refl s, rfl, rfl, rfl, fun _ => ⟨⟨rfl, rfl, rfl, rfl⟩, j, hf⟩⟩
  · exact ⟨KeepsArgs.refl s, rfl, rfl, rfl, fun ht => absurd rfl ht⟩

end

end Sys2Proof.Machine
end

section
/-! The envelope commands (O31, O32, O33, O47) and the tagged view of an envelope (O5). -/

namespace Sys2Proof.Machine

/-- Settles O31, by the length of the payload. -/
theorem envHeaderSetsLengthAndOffset : Obligations.EnvHeaderSetsLengthAndOffset := fun _ _ _ hr =>
  ⟨fun h => State.envCommand_of_ok hr (headerEffect_of_length h),
    fun h => State.envCommand_fails hr (headerEffect_of_length_ne h)⟩

/-- Settles O32, by the room left in `ACC`. -/
theorem envDataAppendsTheUnpackedPayload : Obligations.EnvDataAppendsTheUnpackedPayload := fun _ _ _ hr =>
  ⟨fun h => State.envCommand_of_ok hr (dataEffect_of_room h),
    fun h => State.envCommand_fails hr (dataEffect_of_no_room h)⟩

/-- Settles O33, by the length of the payload. -/
theorem envTrailerSetsTheChecksum : Obligations.EnvTrailerSetsTheChecksum := fun _ _ _ hr =>
  ⟨fun h => State.envCommand_of_ok hr (trailerEffect_of_length h),
    fun h => State.envCommand_fails hr (trailerEffect_of_length_ne h)⟩

/-- Settles O47: the frame of the three commands is one, and each effect writes its own result registers. -/
theorem envelopeCommandFrame : Obligations.EnvelopeCommandFrame := by
  intro i s t hi h
  rw [exec_eq_envCommand hi] at h
  obtain ⟨⟨hargs, hconfig, hop⟩, hstart, hpresent, hinp, hrun⟩ := State.envCommand_frame h
  refine ⟨hargs, hconfig, hop, hstart, hpresent, hinp, fun ht => ?_⟩
  obtain ⟨⟨hout, hdone, hstatus, hinfo⟩, j, hok⟩ := hrun ht
  refine ⟨hout, hdone, hstatus, hinfo, ?_, ?_, ?_⟩
  · rintro ⟨p, rfl⟩
    obtain ⟨l, o, hres⟩ := headerEffect_ok hok
    exact hres ▸ ⟨rfl, rfl, rfl⟩
  · rintro ⟨p, rfl⟩
    obtain ⟨-, hres⟩ := dataEffect_ok hok
    exact hres ▸ ⟨rfl, rfl, rfl, rfl, rfl⟩
  · rintro ⟨p, rfl⟩
    obtain ⟨c, hres⟩ := trailerEffect_ok hok
    exact hres ▸ ⟨rfl, rfl, rfl, rfl⟩

/-- The view of an envelope with a command's code is the view of no other byte sequence (R157). -/
theorem classify_eq_command_iff {c : Byte} (hc : c = 0x77 ∨ c = 0x79 ∨ c = 0x7A) (e p : Bytes) :
    classify e = classify (envelope c p) ↔ e = envelope c p := by
  refine ⟨fun h => ?_, congrArg classify⟩
  obtain ⟨hskip, -⟩ | ⟨k, q, rfl⟩ := classify_cases e
  · rw [hskip, classify_envelope] at h
    grind
  · rw [classify_envelope, classify_envelope] at h
    grind

theorem classify_eq_unknown_iff (e : Bytes) (c : Byte) : classify e = .unknown c ↔
    (∃ q, e = envelope c q) ∧ c ≠ 0x77 ∧ c ≠ 0x79 ∧ c ≠ 0x7A := by
  constructor
  · intro h
    obtain ⟨hskip, -⟩ | ⟨k, q, rfl⟩ := classify_cases e
    · rw [hskip] at h
      cases h
    · rw [classify_envelope] at h
      split_ifs at h with h77 h79 h7A
      cases h
      exact ⟨⟨q, rfl⟩, h77, h79, h7A⟩
  · rintro ⟨⟨q, rfl⟩, h77, h79, h7A⟩
    rw [classify_envelope, if_neg h77, if_neg h79, if_neg h7A]

theorem classify_eq_skip_iff (e : Bytes) :
    classify e = .skip ↔ e.length < 5 ∨ e.take 4 ≠ [0x00, 0x20, 0x29, 0x00] := by
  obtain ⟨hskip, hbad⟩ | ⟨k, q, rfl⟩ := classify_cases e
  · exact iff_of_true hskip hbad
  · refine iff_of_false (fun h => ?_) ?_
    · rw [classify_envelope] at h
      split_ifs at h
    · simp [envelope, Config.vendorHeader]

/-- Settles O5, case by case of the view. -/
theorem classifyGivesTheTaggedView : Obligations.ClassifyGivesTheTaggedView := fun e p c =>
  ⟨classify_eq_command_iff (.inl rfl) e p, classify_eq_command_iff (.inr (.inl rfl)) e p,
    classify_eq_command_iff (.inr (.inr rfl)) e p, classify_eq_unknown_iff e c, classify_eq_skip_iff e⟩

end Sys2Proof.Machine
end

section
/-! SUPPORT. What a list of envelopes holds, envelope by envelope, and the fold of `PARSE` over it
(42_message_assembler.md rules R155, R156, R163, R166). -/

namespace Sys2Proof.Machine

/-! ### What a list holds -/

@[simp] theorem headerPayloads_append (a b : List Bytes) :
    headerPayloads (a ++ b) = headerPayloads a ++ headerPayloads b :=
  List.filterMap_append

@[simp] theorem trailerPayloads_append (a b : List Bytes) :
    trailerPayloads (a ++ b) = trailerPayloads a ++ trailerPayloads b :=
  List.filterMap_append

@[simp] theorem received_append (a b : List Bytes) : received (a ++ b) = received a ++ received b := by
  simp [received, dataPayloads]

section
variable {e p : Bytes}

theorem payloads_of_ignored (h : ignored e = true) :
    headerPayloads [e] = [] ∧ trailerPayloads [e] = [] ∧ received [e] = [] := by
  cases hc : classify e with
  | skip | unknown c => simp [headerPayloads, trailerPayloads, received, dataPayloads, hc]
  | _ => simp [ignored, hc] at h

theorem payloads_of_header (hc : classify e = .header p) :
    headerPayloads [e] = [p] ∧ trailerPayloads [e] = [] ∧ received [e] = [] := by
  simp [headerPayloads, trailerPayloads, received, dataPayloads, hc]

theorem payloads_of_data (hc : classify e = .data p) :
    headerPayloads [e] = [] ∧ trailerPayloads [e] = [] ∧ received [e] = unpack p := by
  simp [headerPayloads, trailerPayloads, received, dataPayloads, hc]

theorem payloads_of_trailer (hc : classify e = .trailer p) :
    headerPayloads [e] = [] ∧ trailerPayloads [e] = [p] ∧ received [e] = [] := by
  simp [headerPayloads, trailerPayloads, received, dataPayloads, hc]

/-! ### One envelope more -/

variable (es : List Bytes)

theorem parsed_concat_ignored (h : ignored e = true) : parsed (es ++ [e]) = parsed es := by
  obtain ⟨hheader, htrailer, hdata⟩ := payloads_of_ignored h
  simp [parsed, hheader, htrailer, hdata]

theorem parsed_concat_header (hc : classify e = .header p) : parsed (es ++ [e]) = (parsed es).setHeader
    (BitVec.ofNat 32 (nibbleValue (p.take 8))) (BitVec.ofNat 32 (nibbleValue (p.drop 8))) := by
  obtain ⟨hheader, htrailer, hdata⟩ := payloads_of_header hc
  simp [parsed, ResultRegs.setHeader, hheader, htrailer, hdata]

theorem parsed_concat_data (hc : classify e = .data p) : parsed (es ++ [e]) = (parsed es).append (unpack p) := by
  obtain ⟨hheader, htrailer, hdata⟩ := payloads_of_data hc
  simp [parsed, ResultRegs.append, hheader, htrailer, hdata]

theorem parsed_concat_trailer (hc : classify e = .trailer p) :
    parsed (es ++ [e]) = (parsed es).setTrailer (BitVec.ofNat 32 (nibbleValue p)) := by
  obtain ⟨hheader, htrailer, hdata⟩ := payloads_of_trailer hc
  simp [parsed, ResultRegs.setTrailer, hheader, htrailer, hdata]

/-- What a list that is acceptable asks of one envelope more (R160, R162, R166). -/
theorem acceptable_concat_iff : Acceptable (es ++ [e]) ↔ Acceptable es ∧ (∀ p ∈ headerPayloads [e], p.length = 16) ∧
    (∀ p ∈ trailerPayloads [e], p.length = 8) ∧ (received es).length + (received [e]).length ≤ Config.bufMax := by
  rw [Acceptable, Acceptable, headerPayloads_append, trailerPayloads_append, received_append, List.forall_mem_append,
    List.forall_mem_append, List.length_append]
  constructor
  · rintro ⟨⟨hh, hh1⟩, ⟨ht, ht1⟩, hroom⟩
    exact ⟨⟨hh, ht, Nat.le_of_add_right_le hroom⟩, hh1, ht1, hroom⟩
  · rintro ⟨⟨hh, ht, -⟩, hh1, ht1, hroom⟩
    exact ⟨⟨hh, hh1⟩, ⟨ht, ht1⟩, hroom⟩

end

/-! ### The fold -/

section
variable {e p : Bytes} (j : Nat) (r : ResultRegs)

theorem parseStep_of_header (hc : classify e = .header p) : parseStep e j r = headerEffect p j r := by
  simp only [parseStep, hc]

theorem parseStep_of_data (hc : classify e = .data p) : parseStep e j r = dataEffect p j r := by
  simp only [parseStep, hc]

theorem parseStep_of_trailer (hc : classify e = .trailer p) : parseStep e j r = trailerEffect p j r := by
  simp only [parseStep, hc]

end

/-- One envelope more is one turn more of the fold (R156). -/
theorem parse_concat (es : List Bytes) (e : Bytes) :
    parse (es ++ [e]) = (parse es).bind (parseStep e es.length) := by
  have hone (j : Nat) (r : ResultRegs) : parseFrom [e] j r = parseStep e j r := by
    cases h : parseStep e j r <;> simp [parseFrom, h]
  rw [parse, parseFrom_append, ← parse, Nat.zero_add]
  cases parse es with
  | ok r => exact hone _ r
  | error x => rfl

/-- After an acceptable list, `parse_step` succeeds exactly when the list is acceptable with the envelope too, and leaves
what that list holds (R160 to R163). -/
theorem parseStep_parsed_eq_ok_iff {es : List Bytes} (hes : Acceptable es) (e : Bytes) (j : Nat) (r : ResultRegs) :
    parseStep e j (parsed es) = .ok r ↔ Acceptable (es ++ [e]) ∧ parsed (es ++ [e]) = r := by
  have ⟨_, _, hroom⟩ := hes
  rw [acceptable_concat_iff, and_iff_right hes]
  cases hc : classify e with
  | skip | unknown c =>
    have hi : ignored e = true := by simp [ignored, hc]
    obtain ⟨hheader, htrailer, hdata⟩ := payloads_of_ignored hi
    rw [parseStep_ignored hi, parsed_concat_ignored es hi]
    simp [hheader, htrailer, hdata, hroom]
  | header p =>
    obtain ⟨hheader, htrailer, hdata⟩ := payloads_of_header hc
    rw [parseStep_of_header j _ hc, headerEffect_eq_ok_iff, parsed_concat_header es hc]
    simp [hheader, htrailer, hdata, hroom]
  | data p =>
    obtain ⟨hheader, htrailer, hdata⟩ := payloads_of_data hc
    rw [parseStep_of_data j _ hc, dataEffect_eq_ok_iff, parsed_concat_data es hc]
    simp [hheader, htrailer, hdata, parsed]
  | trailer p =>
    obtain ⟨hheader, htrailer, hdata⟩ := payloads_of_trailer hc
    rw [parseStep_of_trailer j _ hc, trailerEffect_eq_ok_iff, parsed_concat_trailer es hc]
    simp [hheader, htrailer, hdata, hroom]

/-- `PARSE` gives results exactly for an acceptable list, and they are what the list holds (R163). -/
theorem parse_eq_ok_iff {es : List Bytes} {r : ResultRegs} : parse es = .ok r ↔ Acceptable es ∧ parsed es = r := by
  induction es using List.reverseRecOn generalizing r with
  | nil =>
    have hnil : Acceptable [] := ⟨nofun, nofun, Nat.zero_le _⟩
    have hparse : parse [] = .ok (parsed []) := rfl
    rw [and_iff_right hnil, hparse, Except.ok.injEq]
  | append_singleton es e ih =>
    rw [parse_concat]
    constructor
    · intro h
      cases hp : parse es with
      | ok r' =>
        rw [hp] at h
        obtain ⟨hes, rfl⟩ := ih.mp hp
        exact (parseStep_parsed_eq_ok_iff hes e _ r).mp h
      | error x =>
        rw [hp] at h
        cases h
    · intro h
      have hes : Acceptable es := ((acceptable_concat_iff es).mp h.1).1
      rw [ih.mpr ⟨hes, rfl⟩]
      exact (parseStep_parsed_eq_ok_iff hes e _ r).mpr h

theorem parse_of_acceptable {es : List Bytes} (h : Acceptable es) : parse es = .ok (parsed es) :=
  parse_eq_ok_iff.mpr ⟨h, rfl⟩

/-- An envelope that raises after an acceptable list ends the fold, whatever follows it (R236). -/
theorem parse_eq_error_of_step {pre post : List Bytes} {e : Bytes} {x : Exn} (hpre : Acceptable pre)
    (hx : parseStep e pre.length (parsed pre) = .error x) : parse (pre ++ e :: post) = .error x := by
  have hfold : parseFrom pre 0 ResultRegs.cleared = .ok (parsed pre) := parse_of_acceptable hpre
  simp [parse, parseFrom_append, hfold, parseFrom, hx]

end Sys2Proof.Machine
end

section
/-! `PARSE` of a whole list (O28, O30). -/

namespace Sys2Proof.Machine

theorem exec_parse_whole {s : State} {es : List Bytes} (hr : s.running = none) (hp : s.present = .envelopes es true) :
    exec .parse s = .next (s.beginOp.settleParse (parse es)) := by
  have hwhole : s.beginOp.inp.asEnvelopes = .whole es := InStream.asEnvelopes_whole.mpr hp
  rw [exec_parse_idle hr, parseBody, hwhole, State.withOperand_whole]

/-- A `PARSE` whose fold raises nothing ends with its result registers (R155). -/
theorem exec_parse_ok {s : State} {es : List Bytes} {r : ResultRegs} (hr : s.running = none)
    (hp : s.present = .envelopes es true) (h : parse es = .ok r) :
    exec .parse s = .next ({ s.beginOp with res := r }.finish .empty) := by
  rw [exec_parse_whole hr hp, h, State.settleParse_ok]

/-- A `PARSE` whose fold raises fails (R240). -/
theorem exec_parse_fails {s : State} {es : List Bytes} {x : Exn} (hr : s.running = none)
    (hp : s.present = .envelopes es true) (hx : parse es = .error x) :
    ∃ t, exec .parse s = .next t ∧ Failed s t x.err.code x.info := by
  rw [exec_parse_whole hr hp, hx, State.settleParse_error]
  exact ⟨_, rfl, s.failed_raise x⟩

/-- Settles O28: the list raises nothing, so the fold gives what it holds. -/
theorem parseGivesWhatTheEnvelopesHold : Obligations.ParseGivesWhatTheEnvelopesHold := by
  intro s es hr hp hes
  obtain ⟨hended, -, -⟩ := s.completed_finish .empty
  exact ⟨rfl, _, exec_parse_ok hr hp (parse_of_acceptable hes), hended, rfl⟩

/-- Settles O30: the envelopes before it leave what they hold, and the effect of the envelope on that is its error. -/
theorem parseEndsAtTheFirstError : Obligations.ParseEndsAtTheFirstError := by
  intro s pre post e p hr hp hpre
  have hend {x : Exn} (hx : parseStep e pre.length (parsed pre) = .error x) :
      ∃ t, exec .parse s = .next t ∧ Failed s t x.err.code x.info :=
    exec_parse_fails hr hp (parse_eq_error_of_step hpre hx)
  refine ⟨fun hc hlen => ?_, fun hc hlen => ?_, fun hc hroom => ?_⟩
  · exact hend ((parseStep_of_header _ _ hc).trans (headerEffect_of_length_ne hlen))
  · exact hend ((parseStep_of_trailer _ _ hc).trans (trailerEffect_of_length_ne hlen))
  · exact hend ((parseStep_of_data _ _ hc).trans (dataEffect_of_no_room hroom))

end Sys2Proof.Machine
end

section
/-! SUPPORT. The transfer `BUILD` makes, and what it holds (42_message_assembler.md rules R150 to R153, R165). -/

namespace Sys2Proof.Machine

theorem slices_flatten {k : Nat} (hk : 0 < k) (s : Bytes) : (slices k s).flatten = s := by
  induction s using slices_induction hk with
  | nil => rw [slices_nil hk, List.flatten_nil]
  | short s h0 hlt => rw [slices_short h0 hlt.le, List.flatten_singleton]
  | full g s hg ih => rw [slices_append hk hg, List.flatten_cons, ih]

/-- A flat buffer of at most `BUF_MAX` bytes passes the check (R152). -/
theorem buildCheck_of_le {b : Bytes} (h : b.length ≤ Config.bufMax) : buildCheck b = .ok () :=
  if_neg (Nat.not_lt.mpr h)

theorem buildCheck_of_lt {b : Bytes} (h : Config.bufMax < b.length) :
    buildCheck b = .error { err := .precondition, info := b.length } :=
  if_pos h

/-! ### Lengths -/

theorem headerEnvelope_length (length offset : U32) : (headerEnvelope length offset).length = 21 := by
  simp [headerEnvelope]

theorem dataEnvelope_length (c : Bytes) : (dataEnvelope c).length = 5 + packlen c.length := by
  rw [dataEnvelope, envelope_length, pack_length, Nat.add_comm]

theorem trailerEnvelope_length (checksum : U32) : (trailerEnvelope checksum).length = 13 := by
  simp [trailerEnvelope]

theorem buildEnvelopes_lengths (crc : Bytes → U32) (off : U32) (b : Bytes) :
    (buildEnvelopes crc off b).map List.length =
      21 :: (slices 256 b).map (fun c => 5 + packlen c.length) ++ [13] := by
  simp [buildEnvelopes, headerEnvelope_length, trailerEnvelope_length, dataEnvelope_length, Config.chunk]

/-- The DATA envelopes of a flat buffer: five bytes for each, 293 more for a full chunk, and the packed last chunk
(R295). -/
theorem sum_dataEnvelope_lengths (b : Bytes) : ((slices 256 b).map fun c => 5 + packlen c.length).sum =
    5 * ((b.length + 255) / 256) + 293 * (b.length / 256) + packlen (b.length % 256) := by
  induction b using slices_induction (k := 256) (by decide) with
  | nil => rfl
  | short s h0 hlt =>
    have hpos := List.length_pos_iff.mpr h0
    have hceil : (s.length + 255) / 256 = 1 := by omega
    have hfloor : s.length / 256 = 0 := Nat.div_eq_of_lt hlt
    simp [slices_short h0 hlt.le, hceil, hfloor, Nat.mod_eq_of_lt hlt]
  | full g s hg ih =>
    have hfull : packlen 256 = 293 := rfl
    rw [slices_append (by decide) hg, List.map_cons, List.sum_cons, ih, hg, hfull, List.length_append, hg,
      Nat.add_mod_left]
    omega

/-! ### What a transfer holds -/

/-- DATA envelopes hold no HEADER and no TRAILER payload. -/
theorem payloads_of_forall_data {ds : List Bytes} (hds : ∀ d ∈ ds, ∃ p, classify d = .data p) :
    headerPayloads ds = [] ∧ trailerPayloads ds = [] := by
  constructor
  all_goals
    refine List.filterMap_eq_nil_iff.mpr fun d hd => ?_
    obtain ⟨p, hc⟩ := hds d hd
    simp only [hc]

theorem received_map_dataEnvelope (cs : List Bytes) : received (cs.map dataEnvelope) = cs.flatten := by
  induction cs with
  | nil => rfl
  | cons c cs ih =>
    have hc : classify (dataEnvelope c) = .data (pack c) := classify_data _
    obtain ⟨-, -, hone⟩ := payloads_of_data hc
    rw [List.map_cons, ← List.singleton_append, received_append, hone, unpack_pack, ih, List.flatten_cons]

/-- The result registers after a transfer that carries `acc`. -/
def transferRegs (length offset checksum : U32) (acc : Bytes) : ResultRegs :=
  { len := some length, off := some offset, csum := some checksum, hdrV := true, trlV := true, acc := acc }

/-- A transfer holds the HEADER's and the TRAILER's payload and what its DATA envelopes carry (R150). -/
theorem payloads_of_transfer {length offset checksum : U32} {ds : List Bytes}
    (hds : ∀ d ∈ ds, ∃ p, classify d = .data p) :
    headerPayloads (headerEnvelope length offset :: ds ++ [trailerEnvelope checksum]) =
      [nibenc length ++ nibenc offset] ∧
    trailerPayloads (headerEnvelope length offset :: ds ++ [trailerEnvelope checksum]) = [nibenc checksum] ∧
    received (headerEnvelope length offset :: ds ++ [trailerEnvelope checksum]) = received ds := by
  obtain ⟨hh, ht⟩ := payloads_of_forall_data hds
  obtain ⟨hh1, ht1, hd1⟩ := payloads_of_header (e := headerEnvelope length offset) (classify_header _)
  obtain ⟨hh2, ht2, hd2⟩ := payloads_of_trailer (e := trailerEnvelope checksum) (classify_trailer _)
  rw [← List.singleton_append, headerPayloads_append, headerPayloads_append, trailerPayloads_append,
    trailerPayloads_append, received_append, received_append, hh, ht, hh1, ht1, hd1, hh2, ht2, hd2, List.append_nil]
  exact ⟨rfl, rfl, List.append_nil _⟩

/-- Between a HEADER and a TRAILER that `BUILD` made, `PARSE` gives their values and the bytes received, whatever the DATA
envelopes (R163, R168). -/
theorem parse_transfer {length offset checksum : U32} {ds : List Bytes} (hds : ∀ d ∈ ds, ∃ p, classify d = .data p)
    (hroom : (received ds).length ≤ Config.bufMax) :
    parse (headerEnvelope length offset :: ds ++ [trailerEnvelope checksum]) =
      .ok (transferRegs length offset checksum (received ds)) := by
  obtain ⟨hheader, htrailer, hdata⟩ := payloads_of_transfer (length := length) (offset := offset)
    (checksum := checksum) hds
  rw [parse_eq_ok_iff, Acceptable, parsed, hheader, htrailer, hdata]
  refine ⟨⟨?_, ?_, hroom⟩, ?_⟩
  · simp
  · simp
  · simp [transferRegs, nibbleValue_nibenc]

theorem classify_of_mem_dataEnvelopes {cs : List Bytes} : ∀ d ∈ cs.map dataEnvelope, ∃ p, classify d = .data p :=
  List.forall_mem_map.mpr fun _ _ => ⟨_, classify_data _⟩

theorem parse_buildEnvelopes (crc : Bytes → U32) (off : U32) {b : Bytes} (hb : b.length ≤ Config.bufMax) :
    parse (buildEnvelopes crc off b) = .ok (transferRegs (BitVec.ofNat 32 b.length) off (crc b) b) := by
  have hreceived : received ((slices Config.chunk b).map dataEnvelope) = b := by
    rw [received_map_dataEnvelope, slices_flatten (by decide)]
  have hparse := parse_transfer (length := BitVec.ofNat 32 b.length) (offset := off) (checksum := crc b)
    classify_of_mem_dataEnvelopes (hreceived.symm ▸ hb)
  rwa [hreceived] at hparse

/-- `Verified` asks of a transfer its length and its checksum (R165). -/
theorem transferRegs_verified_iff (crc : Bytes → U32) (length offset checksum : U32) (acc : Bytes) :
    (transferRegs length offset checksum acc).verified crc = true ↔
      acc.length = length.toNat ∧ crc acc = checksum := by
  simp only [transferRegs, ResultRegs.verified, Option.map_some, Bool.true_and, Bool.and_eq_true, beq_iff_eq,
    Option.some.injEq]
  exact and_congr eq_comm eq_comm

/-- A length that fits a flat buffer fits its field (R84). -/
theorem toNat_ofNat_length {b : Bytes} (hb : b.length ≤ Config.bufMax) : (BitVec.ofNat 32 b.length).toNat = b.length :=
  (BitVec.toNat_ofNat _ _).trans (Nat.mod_eq_of_lt (Nat.lt_succ_of_le hb))

end Sys2Proof.Machine
end

section
/-! `BUILD`, and `PARSE` of what it gives (O26, O27, O34, O35). -/

namespace Sys2Proof.Machine

theorem exec_build_whole {s : State} {b : Bytes} (hr : s.running = none) (hp : s.present = .block b true) :
    exec .build s = .next (s.beginOp.settle ((build Config.crc s.buildOffset b).map .envelopes)) := by
  have hwhole : s.beginOp.inp.asBlock = .whole b := InStream.asBlock_whole.mpr hp
  rw [exec_build_idle hr, buildBody, hwhole, State.withOperand_whole]

/-- `BUILD` of a flat buffer within `BUF_MAX` ends with the transfer on `out` (R150). -/
theorem exec_build_of_le {s : State} {b : Bytes} (hr : s.running = none) (hp : s.present = .block b true)
    (hb : b.length ≤ Config.bufMax) :
    exec .build s = .next (s.beginOp.finish (.envelopes (buildEnvelopes Config.crc s.buildOffset b))) := by
  rw [exec_build_whole hr hp, build_eq, buildCheck_of_le hb]
  rfl

/-- `BUILD` refuses a longer buffer (R152). -/
theorem exec_build_of_lt {s : State} {b : Bytes} (hr : s.running = none) (hp : s.present = .block b true)
    (hb : Config.bufMax < b.length) :
    exec .build s = .next (s.beginOp.raise { err := .precondition, info := b.length }) := by
  rw [exec_build_whole hr hp, build_eq, buildCheck_of_lt hb]
  rfl

/-- The offset is the caller's, or the default when there is none (R151). -/
theorem State.buildOffset_cases (s : State) :
    s.argOffset = some s.buildOffset ∨ s.argOffset = none ∧ s.buildOffset = s.cfgDefaultOffset := by
  cases h : s.argOffset with
  | some off => exact .inl (by simp [State.buildOffset, h])
  | none => exact .inr ⟨rfl, by simp [State.buildOffset, h]⟩

/-- Settles O26, by the length of the flat buffer. -/
theorem buildGivesTheTransfer : Obligations.BuildGivesTheTransfer := by
  intro s b hr hp
  refine ⟨rfl, fun hb => ?_, fun hb => ?_⟩
  · exact ⟨_, exec_build_of_lt hr hp hb, s.failed_raise _⟩
  · refine ⟨_, s.buildOffset, (slices Config.chunk b).map dataEnvelope, s.buildOffset_cases, ?_, fun i hi => ?_,
      exec_build_of_le hr hp hb, s.completed_finish _⟩
    · rw [List.length_map, slices_length]
      rfl
    · rw [List.length_map, slices_length] at hi
      rw [List.getElem?_map, slices_getElem? hi]
      rfl

/-- Settles O27: the envelopes are one HEADER, one DATA for each chunk and one TRAILER. -/
theorem buildOutputShape : Obligations.BuildOutputShape := by
  intro crc off b
  refine ⟨?_, ⟨_, _, _, rfl, ⟨_, classify_header _⟩, classify_of_mem_dataEnvelopes, _, classify_trailer _⟩,
    buildEnvelopes_lengths crc off b, sevenBitSafe_buildEnvelopes crc off b, slices_flatten (by decide) b, ?_⟩
  · rw [buildEnvelopes, List.length_append, List.length_cons, List.length_map, slices_length, List.length_singleton]
    exact Nat.add_comm _ 2
  · rw [buildEnvelopes_lengths, List.sum_append, List.sum_cons, List.sum_singleton, sum_dataEnvelope_lengths]
    omega

/-- Settles O34: the transfer holds the flat buffer, its length, the offset and the checksum. -/
theorem assemblerRoundTrip : Obligations.AssemblerRoundTrip := by
  refine ⟨fun s b hr hp hb => ?_, fun crc off b hb => parse_buildEnvelopes crc off hb⟩
  refine ⟨_, _, _, s.buildOffset, s.buildOffset_cases, exec_build_of_le hr hp hb, rfl,
    exec_parse_ok rfl rfl (parse_buildEnvelopes Config.crc s.buildOffset hb), rfl, rfl, rfl, rfl, ?_⟩
  exact (transferRegs_verified_iff _ _ _ _ _).mpr ⟨(toNat_ofNat_length hb).symm, rfl⟩

/-- What `PARSE` ignores holds no payload. -/
theorem filter_ignored (es : List Bytes) :
    headerPayloads (es.filter fun e => !ignored e) = headerPayloads es ∧
    trailerPayloads (es.filter fun e => !ignored e) = trailerPayloads es ∧
    received (es.filter fun e => !ignored e) = received es := by
  induction es using List.reverseRecOn with
  | nil => exact ⟨rfl, rfl, rfl⟩
  | append_singleton es e ih =>
    obtain ⟨hh, ht, hd⟩ := ih
    rw [List.filter_append, headerPayloads_append, headerPayloads_append, trailerPayloads_append, trailerPayloads_append,
      received_append, received_append, hh, ht, hd]
    cases hi : ignored e with
    | false =>
      have hkept : [e].filter (fun e => !ignored e) = [e] := by simp [hi]
      rw [hkept]
      exact ⟨rfl, rfl, rfl⟩
    | true =>
      have hdropped : [e].filter (fun e => !ignored e) = [] := by simp [hi]
      obtain ⟨hh1, ht1, hd1⟩ := payloads_of_ignored hi
      rw [hdropped, hh1, ht1, hd1]
      exact ⟨rfl, rfl, rfl⟩

theorem parse_filter_ignored_eq_ok_iff (es : List Bytes) (r : ResultRegs) :
    parse (es.filter fun e => !ignored e) = .ok r ↔ parse es = .ok r := by
  obtain ⟨hh, ht, hd⟩ := filter_ignored es
  simp only [parse_eq_ok_iff, Acceptable, parsed, hh, ht, hd]

/-- Settles O35: ignored envelopes hold nothing, and a transfer's DATA envelopes may be any list of DATA envelopes. -/
theorem roundTripIsRobustToForeignTraffic : Obligations.RoundTripIsRobustToForeignTraffic := by
  refine ⟨fun es r => (parse_filter_ignored_eq_ok_iff es r).symm, fun crc off b h t ds ds' hb hbuild hsub hroom => ?_⟩
  obtain ⟨rfl, htail⟩ := List.cons.inj hbuild
  obtain ⟨rfl, ht⟩ := List.append_inj' htail rfl
  cases ht
  refine ⟨_, parse_transfer (fun d hd => classify_of_mem_dataEnvelopes d (hsub d hd)) hroom, rfl, ?_⟩
  rw [transferRegs_verified_iff, toNat_ofNat_length hb]

end Sys2Proof.Machine
end

section
/-! SUPPORT. The bank's layout: its parts, their lengths, and that the model's serializer makes it (30_encoding.md rules
R95, R96; 43_sample_bank_container.md rule R190). -/

namespace Sys2Proof.Machine

/-! ### Little-endian fields -/

@[simp] theorem littleEndian_length (v : U32) : (littleEndian v).length = 4 := by
  simp [littleEndian]

/-- Byte `i` of a little-endian field is the value's bits from `8 * i` on (R54). -/
theorem extractLsb'_eq_ofNat_div (v : U32) (i : Nat) :
    v.extractLsb' (8 * i) 8 = BitVec.ofNat 8 (v.toNat / 256 ^ i) := by
  rw [BitVec.extractLsb', Nat.shiftRight_eq_div_pow, Nat.pow_mul]

theorem le32_eq_littleEndian (v : U32) : le32 v = littleEndian v := by
  simp only [littleEndian, ← extractLsb'_eq_ofNat_div]
  rfl

/-- Reading a little-endian field gives its value (R14, R54). -/
theorem unle32_littleEndian (v : U32) : unle32 (littleEndian v) = v := by
  have hlt := v.isLt
  refine BitVec.eq_of_toNat_eq ?_
  simp only [unle32, byteAt, littleEndian, List.range_succ, List.range_zero, List.nil_append,
    List.map_cons, List.map_nil, List.cons_append, List.getD_cons_zero, List.getD_cons_succ, BitVec.toNat_ofNat]
  omega

/-! ### Records -/

/-- The ten-byte header of a serialized record (R96). -/
def headerLayout (r : SampleRecord) : Bytes :=
  r.channels :: r.bitDepth :: (littleEndian r.sampleRate ++ littleEndian r.length)

theorem recordLayout_eq_append (r : SampleRecord) : recordLayout r = headerLayout r ++ r.data := rfl

@[simp] theorem headerLayout_length (r : SampleRecord) : (headerLayout r).length = Config.recHdr := by
  simp [headerLayout, Config.recHdr]

@[simp] theorem recordLayout_length (r : SampleRecord) : (recordLayout r).length = 10 + r.data.length := by
  rw [recordLayout_eq_append, List.length_append, headerLayout_length]
  rfl

theorem recordBytes_eq_recordLayout (r : SampleRecord) : recordBytes r = recordLayout r := by
  simp [recordBytes, recordLayout, le32_eq_littleEndian]

/-- Reading a record's header gives its four fields (R96, R195). -/
theorem recHeader_headerLayout (r : SampleRecord) : recHeader (headerLayout r) =
    { channels := r.channels, bitDepth := r.bitDepth, sampleRate := r.sampleRate, length := r.length } := by
  have hrate : sub (headerLayout r) 2 6 = littleEndian r.sampleRate := by simp [sub, headerLayout]
  have hlength : sub (headerLayout r) 6 10 = littleEndian r.length := by simp [sub, headerLayout]
  rw [recHeader, hrate, hlength, unle32_littleEndian, unle32_littleEndian]
  rfl

/-- Serialized records, one after the other (R95). -/
def recordsLayout (rs : List SampleRecord) : Bytes := (rs.map recordLayout).flatten

@[simp] theorem recordsLayout_nil : recordsLayout [] = [] := rfl

@[simp] theorem recordsLayout_cons (r : SampleRecord) (rs : List SampleRecord) :
    recordsLayout (r :: rs) = recordLayout r ++ recordsLayout rs := rfl

@[simp] theorem recordsLayout_append (rs qs : List SampleRecord) :
    recordsLayout (rs ++ qs) = recordsLayout rs ++ recordsLayout qs := by
  simp [recordsLayout]

@[simp] theorem recordsSize_cons (r : SampleRecord) (rs : List SampleRecord) :
    recordsSize (r :: rs) = 10 + r.data.length + recordsSize rs := by
  simp [recordsSize]

@[simp] theorem recordsLayout_length (rs : List SampleRecord) : (recordsLayout rs).length = recordsSize rs := by
  induction rs with
  | nil => rfl
  | cons r rs ih => rw [recordsLayout_cons, List.length_append, recordLayout_length, ih, recordsSize_cons]

@[simp] theorem zeros_length (n : Nat) : (zeros n).length = n :=
  List.length_replicate

theorem zeros_add (m n : Nat) : zeros (m + n) = zeros m ++ zeros n :=
  List.replicate_add ..

/-- Ten zero bytes are the record `zeroRecord` (R201). -/
theorem recordsLayout_replicate_zeroRecord (k : Nat) :
    recordsLayout (List.replicate k zeroRecord) = zeros (10 * k) := by
  have hone : recordLayout zeroRecord = zeros 10 := by decide
  rw [recordsLayout, List.map_replicate, hone, zeros, List.flatten_replicate_replicate, Nat.mul_comm]
  rfl

/-! ### Banks -/

theorem bankLayout_eq_cons (n : Byte) (rs : List SampleRecord) :
    bankLayout { count := n, records := rs } = n :: recordsLayout rs := rfl

/-- A bank's layout is that of its first records and the layout of the others after it (R95). -/
theorem bankLayout_append (n : Byte) (rs qs : List SampleRecord) :
    bankLayout { count := n, records := rs ++ qs } = bankLayout { count := n, records := rs } ++ recordsLayout qs := by
  simp [bankLayout_eq_cons]

theorem bankLayout_length (c : Bank) : (bankLayout c).length = bankSize c := by
  rw [bankLayout_eq_cons c.count c.records, List.length_cons, recordsLayout_length, bankSize, Nat.add_comm]

theorem bankBytes_eq_bankLayout (c : Bank) : bankBytes c = bankLayout c := by
  rw [bankBytes, bankLayout, List.flatMap_def, funext recordBytes_eq_recordLayout]

end Sys2Proof.Machine
end

section
/-! SUPPORT. `BANK.PAR` as a function of its buffer: what it makes of a bank's layout and the bytes after it
(43_sample_bank_container.md rules R195 to R198). -/

namespace Sys2Proof.Machine

/-- A piece of the buffer is read at its index (R14). -/
theorem memRead_of_append {b pre d rest : Bytes} {n : Nat} (hb : b = pre ++ d ++ rest) (hn : n = d.length) :
    memRead b pre.length n = .ok d := by
  subst hb hn
  exact memRead_ok.mpr ⟨by simp, by simp⟩

/-- Fewer bytes than asked for are Truncated at their index (R14). -/
theorem memRead_of_short {b pre rest : Bytes} {n : Nat} (hb : b = pre ++ rest) (hn : rest.length < n) :
    memRead b pre.length n = .error { err := .truncated, info := pre.length } := by
  subst hb
  exact memRead_error.mpr ⟨by simpa using hn, rfl⟩

section
variable {b pre rest : Bytes} {n : Nat}

/-- Where a well-formed record stands, it is read, and the others after it (R195). -/
theorem readRecords_of_record {r : SampleRecord} (hr : WfRecord r) (hb : b = pre ++ recordLayout r ++ rest) :
    readRecords b (n + 1) pre.length =
      (readRecords b n (pre ++ recordLayout r).length).map fun rs => r :: rs := by
  have hheader : memRead b pre.length Config.recHdr = .ok (headerLayout r) :=
    memRead_of_append (rest := r.data ++ rest) (by simp [hb, recordLayout_eq_append]) (headerLayout_length r).symm
  have hdata : memRead b (pre.length + Config.recHdr) r.length.toNat = .ok r.data := by
    rw [← headerLayout_length r, ← List.length_append]
    exact memRead_of_append (rest := rest) (by simp [hb, recordLayout_eq_append]) hr
  have hnext : pre.length + Config.recHdr + r.length.toNat = (pre ++ recordLayout r).length := by
    rw [List.length_append, recordLayout_length, hr, Nat.add_assoc]
    rfl
  rw [readRecords_data_ok hheader (by rwa [recHeader_headerLayout]), recHeader_headerLayout, hnext]
  rfl

/-- Where well-formed records stand, they are read, and the others after them (R195). -/
theorem readRecords_of_records {rs : List SampleRecord} (hrs : ∀ r ∈ rs, WfRecord r)
    (hb : b = pre ++ recordsLayout rs ++ rest) :
    readRecords b (rs.length + n) pre.length =
      (readRecords b n (pre ++ recordsLayout rs).length).map fun more => rs ++ more := by
  induction rs generalizing pre with
  | nil =>
    rw [recordsLayout_nil, List.append_nil, List.length_nil, Nat.zero_add]
    cases readRecords b n pre.length <;> rfl
  | cons r rs ih =>
    obtain ⟨hr, hrs⟩ := List.forall_mem_cons.mp hrs
    have hfirst : b = pre ++ recordLayout r ++ (recordsLayout rs ++ rest) := by simp [hb]
    have hothers : b = pre ++ recordLayout r ++ recordsLayout rs ++ rest := by simp [hb]
    rw [List.length_cons, Nat.add_right_comm, readRecords_of_record hr hfirst, ih hrs hothers, recordsLayout_cons,
      ← List.append_assoc]
    cases readRecords b n (pre ++ recordLayout r ++ recordsLayout rs).length <;> rfl

/-- Fewer than ten bytes where a record is due are Truncated at their index (R196 (b)). -/
theorem readRecords_of_header_short (hb : b = pre ++ rest) (hrest : rest.length < 10) :
    readRecords b (n + 1) pre.length = .error { err := .truncated, info := pre.length } :=
  readRecords_header_error (memRead_of_short hb hrest)

/-- A header that announces more bytes than follow is Truncated at the index of its data (R196 (c)). -/
theorem readRecords_of_data_short {r : SampleRecord} (hb : b = pre ++ recordLayout r)
    (hr : r.data.length < r.length.toNat) :
    readRecords b (n + 1) pre.length = .error { err := .truncated, info := pre.length + 10 } := by
  have hheader : memRead b pre.length Config.recHdr = .ok (headerLayout r) :=
    memRead_of_append (rest := r.data) (by simp [hb, recordLayout_eq_append]) (headerLayout_length r).symm
  have hdata : memRead b (pre ++ headerLayout r).length r.length.toNat =
      .error { err := .truncated, info := (pre ++ headerLayout r).length } :=
    memRead_of_short (by simp [hb, recordLayout_eq_append]) hr
  rw [List.length_append, headerLayout_length] at hdata
  exact readRecords_data_error hheader (by rwa [recHeader_headerLayout])

end

theorem bankPar_nil : bankPar [] = .error { err := .truncated, info := 0 } := rfl

theorem bankPar_cons (n : Byte) (b : Bytes) :
    bankPar (n :: b) = (readRecords (n :: b) n.toNat 1).map fun rs => { count := n, records := rs } :=
  bankPar_count_ok (memRead_of_append (pre := []) (d := [n]) rfl rfl)

/-- After the records of a layout, `BANK.PAR` goes on to read those that its count still asks for (R195). -/
theorem bankPar_bankLayout_append {n : Byte} {rs : List SampleRecord} {k : Nat} (hrs : ∀ r ∈ rs, WfRecord r)
    (hn : n.toNat = rs.length + k) (rest : Bytes) :
    bankPar (bankLayout { count := n, records := rs } ++ rest) =
      (readRecords (bankLayout { count := n, records := rs } ++ rest) k
        (bankLayout { count := n, records := rs }).length).map fun more => { count := n, records := rs ++ more } := by
  have hread := readRecords_of_records (b := n :: (recordsLayout rs ++ rest)) (pre := [n]) (n := k) hrs rfl
  rw [List.length_singleton, List.singleton_append] at hread
  rw [bankLayout_eq_cons, List.cons_append, bankPar_cons, hn, hread]
  cases readRecords (n :: (recordsLayout rs ++ rest)) k (n :: recordsLayout rs).length <;> rfl

/-- `BANK.PAR` reads a well-formed bank and ignores what follows (R198). -/
theorem bankPar_bankLayout {c : Bank} (hc : WfBank c) (tail : Bytes) : bankPar (bankLayout c ++ tail) = .ok c := by
  obtain ⟨hcount, hrs⟩ := hc
  rw [bankPar_bankLayout_append hrs (k := 0) hcount]
  simp [readRecords, Except.map]

section
variable {n : Byte} {rs : List SampleRecord} (hrs : ∀ r ∈ rs, WfRecord r) (hn : rs.length < n.toNat)
include hrs hn

theorem bankPar_of_header_short {rest : Bytes} (hrest : rest.length < 10) :
    bankPar (bankLayout { count := n, records := rs } ++ rest) =
      .error { err := .truncated, info := bankSize { count := n, records := rs } } := by
  obtain ⟨k, hk⟩ := Nat.exists_eq_add_of_lt hn
  rw [bankPar_bankLayout_append hrs (k := k + 1) hk, readRecords_of_header_short rfl hrest, bankLayout_length]
  rfl

theorem bankPar_of_data_short {r : SampleRecord} (hr : r.data.length < r.length.toNat) :
    bankPar (bankLayout { count := n, records := rs } ++ recordLayout r) =
      .error { err := .truncated, info := bankSize { count := n, records := rs } + 10 } := by
  obtain ⟨k, hk⟩ := Nat.exists_eq_add_of_lt hn
  rw [bankPar_bankLayout_append hrs (k := k + 1) hk, readRecords_of_data_short rfl hr, bankLayout_length]
  rfl

end

/-! ### Records missing from a padded bank -/

theorem wfRecord_of_mem_append_zeroRecords {rs : List SampleRecord} (hrs : ∀ r ∈ rs, WfRecord r) (k : Nat) :
    ∀ r ∈ rs ++ List.replicate k zeroRecord, WfRecord r := by
  refine List.forall_mem_append.mpr ⟨hrs, fun r hr => ?_⟩
  rw [List.eq_of_mem_replicate hr]
  rfl

/-- Each ten bytes of padding lay out one more empty all-zero record (R201). -/
theorem bankLayout_append_zeros (n : Byte) (rs : List SampleRecord) (k m : Nat) :
    bankLayout { count := n, records := rs } ++ zeros (10 * k + m) =
      bankLayout { count := n, records := rs ++ List.replicate k zeroRecord } ++ zeros m := by
  rw [bankLayout_append, recordsLayout_replicate_zeroRecord, List.append_assoc, zeros_add]

section
variable {n : Byte} {rs : List SampleRecord} (hrs : ∀ r ∈ rs, WfRecord r) (hn : rs.length < n.toNat) {m : Nat}
include hrs hn

/-- Ten bytes of padding for each missing record are read as empty all-zero records (R201). -/
theorem bankPar_of_padding (hm : 10 * (n.toNat - rs.length) ≤ m) :
    bankPar (bankLayout { count := n, records := rs } ++ zeros m) =
      .ok { count := n, records := rs ++ List.replicate (n.toNat - rs.length) zeroRecord } := by
  have hcount : n.toNat = (rs ++ List.replicate (n.toNat - rs.length) zeroRecord).length := by
    rw [List.length_append, List.length_replicate, Nat.add_sub_cancel' hn.le]
  obtain ⟨l, rfl⟩ := Nat.exists_eq_add_of_le hm
  rw [bankLayout_append_zeros]
  exact bankPar_bankLayout ⟨hcount, wfRecord_of_mem_append_zeroRecords hrs _⟩ _

/-- Less padding is Truncated where fewer than ten bytes of it are left (R196 (b), R201). -/
theorem bankPar_of_padding_short (hm : m < 10 * (n.toNat - rs.length)) :
    bankPar (bankLayout { count := n, records := rs } ++ zeros m) =
      .error { err := .truncated, info := bankSize { count := n, records := rs } + 10 * (m / 10) } := by
  have hfew : (rs ++ List.replicate (m / 10) zeroRecord).length < n.toNat := by
    rw [List.length_append, List.length_replicate]
    omega
  have hrest : (zeros (m % 10)).length < 10 := zeros_length _ ▸ Nat.mod_lt _ (by decide)
  have hsize : bankSize { count := n, records := rs ++ List.replicate (m / 10) zeroRecord } =
      bankSize { count := n, records := rs } + 10 * (m / 10) := by
    rw [← bankLayout_length, bankLayout_append, List.length_append, bankLayout_length,
      recordsLayout_replicate_zeroRecord, zeros_length]
  rw [← Nat.div_add_mod m 10, bankLayout_append_zeros,
    bankPar_of_header_short (wfRecord_of_mem_append_zeroRecords hrs _) hfew hrest, hsize, Nat.div_add_mod]

end

end Sys2Proof.Machine
end

section
/-! SUPPORT. `BANK.SER` as a function of its bank, and the two operations on an idle block whose operand is whole
(43_sample_bank_container.md rules R190 to R193). -/

namespace Sys2Proof.Machine

/-- No record is an offender exactly when all are well-formed (R191). -/
theorem firstBad_eq_none_iff {rs : List SampleRecord} : firstBad rs = none ↔ ∀ r ∈ rs, WfRecord r := by
  simp [firstBad]

/-- The first ill-formed record is the one that is named (R191). -/
theorem firstBad_append_cons {pre post : List SampleRecord} {r : SampleRecord} (hpre : ∀ q ∈ pre, WfRecord q)
    (hr : ¬ WfRecord r) : firstBad (pre ++ r :: post) = some pre.length := by
  have hnone : firstBad pre = none := firstBad_eq_none_iff.mpr hpre
  rw [firstBad] at hnone ⊢
  rw [List.findIdx?_append, hnone, List.findIdx?_cons, if_pos (bne_iff_ne.mpr hr)]
  simp

theorem bankSer_of_illFormed {capacity : Nat} {c : Bank} {pad : Bool} {i : Nat} (h : firstBad c.records = some i) :
    bankSer capacity c pad = .error { err := .precondition, info := i } := by
  simp only [bankSer, h]

/-- The zero bytes `BANK.SER` adds when padding is on (R193). -/
def padding (capacity : Nat) (c : Bank) (pad : Bool) : Bytes :=
  if pad then zeros (capacity - bankSize c) else []

section
variable {capacity : Nat} {c : Bank} {pad : Bool} (hc : ∀ r ∈ c.records, WfRecord r)
include hc

theorem bankSer_of_le (hsize : bankSize c ≤ capacity) :
    bankSer capacity c pad = .ok (bankLayout c ++ padding capacity c pad) := by
  rw [bankSer, firstBad_eq_none_iff.mpr hc, bankBytes_eq_bankLayout, bankLayout_length]
  cases pad <;> simp [padding, Nat.not_lt.mpr hsize]

theorem bankSer_of_lt (hsize : capacity < bankSize c) :
    bankSer capacity c pad = .error { err := .overCapacity, info := bankSize c } := by
  rw [bankSer, firstBad_eq_none_iff.mpr hc, bankBytes_eq_bankLayout, bankLayout_length]
  exact if_pos hsize

/-- What `BANK.SER` gives is the layout and its padding (R190, R193). -/
theorem eq_of_bankSer_eq_ok {out : Bytes} (h : bankSer capacity c pad = .ok out) :
    out = bankLayout c ++ padding capacity c pad := by
  rcases Nat.lt_or_ge capacity (bankSize c) with hsize | hsize
  · rw [bankSer_of_lt hc hsize] at h
    cases h
  · rw [bankSer_of_le hc hsize] at h
    exact (Except.ok.inj h).symm

end

/-! ### On the machine -/

section
variable {s : State} (hr : s.running = none)
include hr

theorem exec_bankSer_whole {c : Bank} (hp : s.present = .bank c) : exec .bankSer s =
    .next (s.beginOp.settle ((bankSer s.cfgCapacity c s.argPad).map .block)) := by
  have hwhole : s.beginOp.inp.asBank = .whole c := InStream.asBank_whole.mpr hp
  rw [exec_bankSer_idle hr, bankSerBody, hwhole, State.withOperand_whole]
  rfl

theorem exec_bankPar_whole {b : Bytes} (hp : s.present = .block b true) :
    exec .bankPar s = .next (s.beginOp.settle ((bankPar b).map .bank)) := by
  have hwhole : s.beginOp.inp.asBlock = .whole b := InStream.asBlock_whole.mpr hp
  rw [exec_bankPar_idle hr, bankParBody, hwhole, State.withOperand_whole]

/-- A `BANK.SER` whose function gives bytes ends with them on `out` (R42). -/
theorem exec_bankSer_ok {c : Bank} {out : Bytes} (hp : s.present = .bank c)
    (h : bankSer s.cfgCapacity c s.argPad = .ok out) : exec .bankSer s = .next (s.beginOp.finish (.block out)) := by
  rw [exec_bankSer_whole hr hp, h]
  rfl

/-- A `BANK.SER` whose function raises fails (R240). -/
theorem exec_bankSer_fails {c : Bank} {x : Exn} (hp : s.present = .bank c)
    (hx : bankSer s.cfgCapacity c s.argPad = .error x) :
    ∃ t, exec .bankSer s = .next t ∧ Failed s t x.err.code x.info := by
  rw [exec_bankSer_whole hr hp, hx]
  exact ⟨_, rfl, s.failed_raise x⟩

/-- A `BANK.PAR` whose function gives a bank ends with it on `out` (R42). -/
theorem exec_bankPar_ok {b : Bytes} {c : Bank} (hp : s.present = .block b true) (h : bankPar b = .ok c) :
    exec .bankPar s = .next (s.beginOp.finish (.bank c)) := by
  rw [exec_bankPar_whole hr hp, h]
  rfl

/-- A `BANK.PAR` whose function raises fails (R240). -/
theorem exec_bankPar_fails {b : Bytes} {x : Exn} (hp : s.present = .block b true) (hx : bankPar b = .error x) :
    ∃ t, exec .bankPar s = .next t ∧ Failed s t x.err.code x.info := by
  rw [exec_bankPar_whole hr hp, hx]
  exact ⟨_, rfl, s.failed_raise x⟩

end

end Sys2Proof.Machine
end

section
/-! `BANK.SER` and `BANK.PAR` (O36 to O42). -/

namespace Sys2Proof.Machine

/-- Settles O36: the bank is well-formed and fits, so `BANK.SER` gives its layout and the padding. -/
theorem bankSerLaysOutTheBank : Obligations.BankSerLaysOutTheBank := by
  intro s c hr hp hc hsize
  refine ⟨rfl, bankLayout_length c, _, exec_bankSer_ok hr hp (bankSer_of_le hc hsize), fun hpad => ?_,
    fun hpad => ?_⟩
  · rw [hpad]
    exact s.completed_finish _
  · rw [hpad, padding, if_neg Bool.false_ne_true, List.append_nil]
    exact s.completed_finish _

/-- Settles O37: the check of the records comes before that of the size. -/
theorem bankSerRefusesAnIllFormedRecord : Obligations.BankSerRefusesAnIllFormedRecord :=
  fun _ _ _ _ _ hr hp hpre hbad => exec_bankSer_fails hr hp (bankSer_of_illFormed (firstBad_append_cons hpre hbad))

/-- Settles O38: the records pass their check, and the size does not. -/
theorem bankSerRefusesAnOversizedBank : Obligations.BankSerRefusesAnOversizedBank := fun _ _ hr hp hc hsize =>
  exec_bankSer_fails hr hp (bankSer_of_lt hc hsize)

/-- Settles O39: the records are read one after the other, and nothing after them. -/
theorem bankParReadsTheBank : Obligations.BankParReadsTheBank := fun s _ tail hr hc hp =>
  ⟨rfl, _, exec_bankPar_ok hr hp (bankPar_bankLayout hc tail), s.completed_finish _⟩

/-- Settles O40, by the read that goes past the end: of the count byte, of a header or of a record's data. -/
theorem bankParTruncated : Obligations.BankParTruncated := fun _ _ _ _ hr hrs hn =>
  ⟨fun hp => exec_bankPar_fails hr hp bankPar_nil,
    fun hp hrest => exec_bankPar_fails hr hp (bankPar_of_header_short hrs hn hrest),
    fun _ hp hdata => exec_bankPar_fails hr hp (bankPar_of_data_short hrs hn hdata)⟩

/-- Settles O41: the padding is bytes after the last record, which `BANK.PAR` ignores. -/
theorem containerRoundTrip : Obligations.ContainerRoundTrip := by
  intro s c hr hp hc hsize
  exact ⟨_, _, _, exec_bankSer_ok hr hp (bankSer_of_le hc.right hsize), rfl,
    exec_bankPar_ok rfl rfl (bankPar_bankLayout hc _), rfl, rfl⟩

/-- Settles O42: with a count too small the records left over are bytes after the bank; with a count too large the
padding stands where the missing records are due. -/
theorem wrongCountIsNotDetected : Obligations.WrongCountIsNotDetected := by
  rintro capacity ⟨n, rs⟩ pad out hrs hout
  obtain rfl := eq_of_bankSer_eq_ok hrs hout
  refine ⟨fun hn => ?_, fun hn hpad => ?_, fun hn hpad hm => ?_, fun hn hpad hm => ?_⟩
  · have hfirst : WfBank { count := n, records := rs.take n.toNat } :=
      ⟨(List.length_take_of_le hn.le).symm, fun r hr => hrs r (List.mem_of_mem_take hr)⟩
    have hsplit : bankLayout { count := n, records := rs } =
        bankLayout { count := n, records := rs.take n.toNat } ++ recordsLayout (rs.drop n.toNat) := by
      rw [← bankLayout_append, List.take_append_drop]
    rw [hsplit, List.append_assoc]
    exact bankPar_bankLayout hfirst _
  · have hnone : padding capacity { count := n, records := rs } pad = [] := if_neg (by simp [hpad])
    have hempty : ([] : Bytes).length < 10 := by decide
    rw [hnone, bankPar_of_header_short hrs hn hempty, List.append_nil, bankLayout_length]
  · rw [hpad]
    exact bankPar_of_padding hrs hn hm
  · rw [hpad]
    exact ⟨_, bankPar_of_padding_short hrs hn hm⟩

end Sys2Proof.Machine
end

section
/-! SUPPORT. `SWAP` as a function of its width and its data, byte by byte (44_sample_endian_adapter.md rules R220 to
R222). -/

namespace Sys2Proof.Machine

/-- An illegal width is refused, and named (R221). -/
theorem swapCheck_illegal {w : Nat} (h : w = 0 ∨ 4 < w) : swapCheck w = .error { err := .precondition, info := w } :=
  if_pos h

/-- `SWAP` of a legal width (R220). -/
theorem swap_ok {w : Nat} (hw : swapCheck w = .ok ()) (d : Bytes) : swap w d = .ok (swapWords w d) := by
  rw [swap, hw]

section
variable {w : Nat} (hw : 0 < w)
include hw

/-- The words of `SWAP` are the slices of the bytes before the trailing partial word. -/
theorem swapWords_eq_flatMap_slices (d : Bytes) :
    swapWords w d = (slices w (d.take (w * (d.length / w)))).flatMap List.reverse := by
  have hlen : (d.take (w * (d.length / w))).length = w * (d.length / w) :=
    List.length_take_of_le (Nat.mul_div_le _ _)
  have hcount : (w * (d.length / w) + w - 1) / w = d.length / w := by
    rw [Nat.add_sub_assoc hw, Nat.mul_add_div hw, Nat.div_eq_of_lt (Nat.sub_lt hw Nat.one_pos), Nat.add_zero]
  rw [swapWords, slices, hlen, hcount, List.flatMap_map]
  refine List.flatMap_congr fun j hj => ?_
  have hword : w * j + w ≤ w * (d.length / w) := Nat.mul_le_mul_left w (List.mem_range.mp hj)
  rw [List.drop_take, List.take_take, Nat.min_eq_left (Nat.le_sub_of_add_le' hword)]

/-- `SWAP` gives the bytes of every whole word. -/
theorem swapWords_length (d : Bytes) : (swapWords w d).length = w * (d.length / w) := by
  rw [swapWords_eq_flatMap_slices hw, List.length_flatMap]
  simp only [List.length_reverse]
  rw [← List.length_flatten, slices_flatten hw, List.length_take_of_le (Nat.mul_div_le _ _)]

/-- Byte `k` of word `j` of what `SWAP` gives (R220). -/
theorem swapWords_getElem? {d : Bytes} {j k : Nat} (hj : j < d.length / w) (hk : k < w) :
    (swapWords w d)[w * j + k]? = d[w * j + (w - 1 - k)]? := by
  have hword : w * j + w ≤ w * (d.length / w) := Nat.mul_le_mul_left w hj
  have hle : w * (d.length / w) ≤ d.length := Nat.mul_div_le _ _
  have hlen : (((d.take (w * (d.length / w))).drop (w * j)).take w).length = w := by
    rw [List.length_take, List.length_drop, List.length_take]
    omega
  rw [swapWords_eq_flatMap_slices hw,
    flatMap_slices_getElem? hw (fun g hg => by rw [List.length_reverse, hg]) (by rw [List.length_take]; omega) hk,
    List.getElem?_reverse (hlen.symm ▸ hk), hlen, List.getElem?_take_of_lt (by omega), List.getElem?_drop,
    List.getElem?_take_of_lt (by omega)]

/-- Every word is reversed twice, so `SWAP` twice only drops the trailing partial word (R222). -/
theorem swapWords_swapWords (d : Bytes) : swapWords w (swapWords w d) = d.take (w * (d.length / w)) := by
  have hwords : (swapWords w d).length / w = d.length / w := by rw [swapWords_length hw, Nat.mul_div_cancel_left _ hw]
  refine List.ext_getElem? fun i => ?_
  rcases Nat.lt_or_ge i (w * (d.length / w)) with hi | hi
  · have hj : i / w < d.length / w := (Nat.div_lt_iff_lt_mul hw).mpr (Nat.mul_comm w _ ▸ hi)
    have hk : i % w < w := Nat.mod_lt i hw
    have hback : w - 1 - (w - 1 - i % w) = i % w := by omega
    rw [List.getElem?_take_of_lt hi]
    conv_lhs => rw [← Nat.div_add_mod i w]
    rw [swapWords_getElem? hw (hwords ▸ hj) hk, swapWords_getElem? hw hj (by omega), hback, Nat.div_add_mod]
  · rw [List.getElem?_eq_none (by rw [swapWords_length hw, hwords]; exact hi),
      List.getElem?_eq_none ((List.length_take_le _ _).trans hi)]

end

end Sys2Proof.Machine
end

section
/-! `SWAP` (O44, O45). -/

namespace Sys2Proof.Machine

/-- `SWAP` of an illegal width fails before any data is read (R221). -/
theorem exec_swap_fails {s : State} (hr : s.running = none) (hw : s.argWidth.toNat = 0 ∨ 4 < s.argWidth.toNat) :
    ∃ t, exec .swap s = .next t ∧ Failed s t 4 s.argWidth.toNat := by
  rw [exec_swap_idle hr, swapBody_error (swapCheck_illegal hw)]
  exact ⟨_, rfl, s.failed_raise _⟩

/-- `SWAP` of a legal width and a whole block ends at once with the reversed words on `out` (R220). -/
theorem exec_swap_whole {s : State} {d : Bytes} (hr : s.running = none) (hw : swapCheck s.argWidth.toNat = .ok ())
    (hp : s.present = .block d true) :
    exec .swap s = .next (s.beginOp.finish (.block (swapWords s.argWidth.toNat d))) := by
  have hwhole : s.beginOp.inp.asBlock = .whole d := InStream.asBlock_whole.mpr hp
  rw [exec_swap_idle hr, swapBody_ok hw, hwhole, State.withOperand_whole]

/-- Settles O44: the width is checked first; the bytes of `SWAP` are then the reversed words. -/
theorem swapReversesWholeWords : Obligations.SwapReversesWholeWords := by
  intro s hr
  refine ⟨rfl, exec_swap_fails hr, fun h1 h4 d hp => ⟨_, _, exec_swap_whole hr (swapCheck_ok h1 h4) hp,
    s.completed_finish _, ?_, fun _ _ => swapWords_getElem? h1⟩⟩
  rw [swapWords_length h1, Nat.mul_div_self_eq_mod_sub_self]

/-- Settles O45: the second `SWAP` undoes the first on the whole words, which are all of the input exactly when its
length is a multiple of the width. -/
theorem swapTwiceTruncates : Obligations.SwapTwiceTruncates := by
  intro w x h1 h4
  have hwhole : w * (x.length / w) = x.length - x.length % w := Nat.mul_div_self_eq_mod_sub_self
  have htwice : swap w (swapWords w x) = .ok (x.take (x.length - x.length % w)) := by
    rw [swap_ok (swapCheck_ok h1 h4), swapWords_swapWords h1, hwhole]
  refine ⟨_, swap_ok (swapCheck_ok h1 h4) x, (swapWords_length h1 x).trans hwhole, htwice, ?_⟩
  have hmod : x.length % w ≤ x.length := Nat.mod_le _ _
  rw [htwice, Except.ok.injEq, List.take_eq_self_iff]
  omega

end Sys2Proof.Machine
end

section
/-! How an instruction or a step ends an operation, and what an error leaves (O48, O49; 60_exceptions.md rules R240 and
R241). -/

namespace Sys2Proof.Machine

/-- How an operation that works on `b` can end: with results, in registers or on `out`, or in an error (R42, R240). -/
inductive Ends (b : State) : State → Prop
  | finish (r : ResultRegs) (out : OutStream) : Ends b ({ b with res := r }.finish out)
  | raise (x : Exn) : Ends b (b.raise x)

section
variable {b t : State} (h : Ends b t)
include h

theorem Ends.ended : Ended b t t.status t.errInfo := by
  cases h with
  | finish r out => exact ⟨rfl, rfl, rfl, rfl, ⟨rfl, rfl, rfl, rfl, rfl⟩, rfl, rfl, rfl⟩
  | raise x => exact (b.failed_raise_running x).1

theorem Ends.ports : t.done = true ∧ t.start = b.start ∧ t.inp = b.inp := by
  cases h <;> exact ⟨rfl, rfl, rfl⟩

/-- A `STATUS` that is not 0 tells that an error was raised, which leaves no result (R240). -/
theorem Ends.failed (hstatus : t.status ≠ 0) : Failed b t t.status t.errInfo := by
  cases h with
  | finish r out => exact absurd rfl hstatus
  | raise x => exact b.failed_raise_running x

theorem Ends.errInfo (hstatus : t.status = 0) : t.errInfo = 0 := by
  cases h with
  | finish r out => rfl
  | raise x => exact absurd hstatus x.err.code_ne_ok

end

/-- An advance that leaves the block idle has ended the operation. -/
theorem Advance.ends {p : Running} {errs : List Err} {b t : State} (h : Advance p errs b t) (ht : t.running = none) :
    Ends b t := by
  cases h with
  | finish _ => exact .finish b.res _
  | raise _ => exact .raise _
  | run _ _ => cases ht

/-- A start that leaves the block idle has ended the operation it started. -/
theorem OpStart.ends {i : Instr} {s t : State} (h : OpStart i s t) (ht : t.running = none) : Ends s.beginOp t := by
  cases h with
  | advance _ h => exact h.ends ht
  | parsed _ _ _ => exact .finish _ _

/-- An envelope command that ends its `PARSE` has raised an error (R236). -/
theorem exec_raises {i : Instr} {s t : State} (hi : i.isEnv = true) (h : exec i s = .next t) (ht : t.running = none) :
    ∃ x, t = s.raise x := by
  rw [exec_eq_envCommand hi] at h
  obtain ⟨j, -, ⟨r, -, rfl⟩ | ⟨x, -, rfl⟩⟩ := State.envCommand_next h
  · cases ht
  · exact ⟨x, rfl⟩

/-- Settles O48: an operation ends from the cleared state of its start, an envelope command in an error from the state
of its `PARSE`. -/
theorem errorLeavesNothingBehind : Obligations.ErrorLeavesNothingBehind := by
  intro i s t h ht
  cases hi : i.isEnv with
  | false =>
    have hends : Ends s.beginOp t := (exec_opStart hi h).2.ends ht
    obtain ⟨hdone, -, hinp⟩ := hends.ports
    exact ⟨hends.ended, hdone, fun _ => hinp, nofun, hends.failed, hends.errInfo⟩
  | true =>
    obtain ⟨x, rfl⟩ := exec_raises hi h ht
    have hfailed : Failed s (s.raise x) x.err.code x.info := s.failed_raise_running x
    exact ⟨hfailed.1, rfl, nofun, fun _ => ⟨rfl, x.err.code_ne_ok⟩, fun _ => hfailed, (Ends.raise x).errInfo⟩

/-- An envelope that ends its `PARSE` has raised an error (R236). -/
theorem State.afterEnvelope_ends {j : Nat} {r : Except Exn ResultRegs} {s : State}
    (ht : (s.afterEnvelope j r).running = none) : Ends s (s.afterEnvelope j r) := by
  cases r with
  | ok r => cases ht
  | error x => exact .raise x

/-- A step of an idle block with a request that leaves it idle has ended the requested operation, a reserved code
included (R101). -/
theorem step_ends_of_start {s t : State} (hr : s.running = none) (hs : s.start = true) (h : step s = .next t)
    (ht : t.running = none) : Ends s.beginOp t := by
  have hfetch : fetch s = fetchOp s := fetch_start hr hs
  cases hd : decode (.op s.op) with
  | ok i =>
    rw [step_instr (hfetch.trans (fetchOp_ok hd))] at h
    exact (exec_opStart (isEnv_of_decode_op hd) h).2.ends ht
  | error x =>
    rw [step_other (hfetch.trans (fetchOp_error hd))] at h
    cases h
    exact .raise _

/-- A step of a running operation that leaves the block idle has ended it, and no request stood (R246). -/
theorem step_ends_of_running {s t : State} {p : Running} (hr : s.running = some p) (h : step s = .next t)
    (ht : t.running = none) : s.start = false ∧ Ends s t := by
  cases hs : s.start with
  | true =>
    rw [step_busy hr hs] at h
    cases h
  | false =>
    refine ⟨rfl, ?_⟩
    cases hp : p.isParse with
    | false =>
      obtain ⟨errs, h⟩ := step_advance hp hr hs h
      exact h.ends ht
    | true =>
      obtain ⟨j, rfl⟩ := Running.eq_parse_of_isParse hp
      obtain ⟨e, -, rfl⟩ | rfl | rfl := step_parse_next hr hs h
      · exact State.afterEnvelope_ends ht
      · exact .finish s.res .empty
      · cases hr.symm.trans ht

/-- Settles O49: such a step has ended an operation, either from the cleared state of its start or from where it stood,
and in an error. -/
theorem everyErrorLeavesNoResult : Obligations.EveryErrorLeavesNoResult := by
  intro s t h hbusy ht hstatus
  cases hr : s.running with
  | none =>
    have hs : s.start = true := hbusy.resolve_left (not_not_intro hr)
    have hends : Ends s.beginOp t := step_ends_of_start hr hs h ht
    obtain ⟨⟨-, -, -, -, hargs, hconfig⟩, hout, hres⟩ := hends.failed hstatus
    obtain ⟨hdone, hstart, hinp⟩ := hends.ports
    exact ⟨hout, hres, hdone, hstart, hargs, hconfig, fun _ => hinp, fun hne => absurd rfl hne⟩
  | some p =>
    obtain ⟨hs, hends⟩ := step_ends_of_running hr h ht
    obtain ⟨⟨-, -, -, -, hargs, hconfig⟩, hout, hres⟩ := hends.failed hstatus
    obtain ⟨hdone, hstart, hinp⟩ := hends.ports
    exact ⟨hout, hres, hdone, hstart.trans hs, hargs, hconfig, nofun, fun _ => hinp⟩

end Sys2Proof.Machine
end

section
/-! When the block waits, and what has no step (O12, O13; 60_exceptions.md rules R246 and R251). -/

namespace Sys2Proof.Machine

/-- An idle block without a request waits (R271). -/
theorem step_idle {s : State} (hr : s.running = none) (hs : s.start = false) : step s = .next s :=
  step_other (by simp [fetch, hr, hs])

/-- An open list may still get the envelope after its last (R36). -/
theorem InStream.envelopeAt_length (es : List Bytes) :
    (InStream.envelopes es false).envelopeAt es.length = .waiting := by
  simp [InStream.envelopeAt]

/-- Settles O12: nothing is requested, or the open list has no envelope at the position of the `PARSE`. -/
theorem blockWaitsWithoutInput : Obligations.BlockWaitsWithoutInput :=
  ⟨fun _ => step_idle, fun _ es hr hs hinp => step_parse_waiting hs hr (hinp ▸ InStream.envelopeAt_length es)⟩

/-- An operation started while another runs has no step (R246). -/
theorem exec_busy {i : Instr} {s : State} (hi : i.isEnv = false) (hr : s.running ≠ none) :
    exec i s = .fault .startWhileRunning := by
  cases i with
  | envHeader _ | envData _ | envTrailer _ => cases hi
  | nibEnc | nibDec => exact State.startOp_busy (fun t => .next (t.finish _)) hr
  | _ => exact State.startOp_busy _ hr

/-- An envelope command has an effect inside a `PARSE` only (assumption log 9). -/
theorem State.envCommand_outside {f : Nat → ResultRegs → Except Exn ResultRegs} {s : State}
    (hr : ∀ j, s.running ≠ some (.parse j)) : s.envCommand f = .refused .envelopeOutsideParse := by
  unfold State.envCommand
  split
  next j hj => exact absurd hj (hr j)
  next => rfl

section
variable {i : InStream} {b : Bytes} {eob : Bool} {es : List Bytes} {eos : Bool} {c : Bank}

theorem asBlock_otherKind (h : i = .envelopes es eos ∨ i = .bank c) : i.asBlock = .otherKind := by
  obtain rfl | rfl := h <;> rfl

theorem asEnvelopes_otherKind (h : i = .block b eob ∨ i = .bank c) : i.asEnvelopes = .otherKind := by
  obtain rfl | rfl := h <;> rfl

theorem asBank_otherKind (h : i = .block b eob ∨ i = .envelopes es eos) : i.asBank = .otherKind := by
  obtain rfl | rfl := h <;> rfl

end

/-- An operation whose operand is of another kind than it takes has no step (assumption log 8). -/
theorem exec_of_otherKind {α : Type} {i : Instr} {s b : State} {operand : Presented α} {w : Running} {go : α → State}
    (hexec : exec i s = b.withOperand operand w go) (hkind : operand = .otherKind) :
    exec i s = .fault .operandKind := by
  rw [hexec, hkind]
  rfl

/-- Settles O13: the block is busy, the operand is of another kind than the operation takes, or no `PARSE` runs. -/
theorem whatHasNoStep : Obligations.WhatHasNoStep := by
  refine ⟨fun s hrun hs => ?_, fun _ _ hrun hi => exec_busy hi hrun,
    fun s b eob es eos c hr => ⟨fun h => ?_, fun h => ?_, fun h => ?_⟩, fun s i hi hr => ?_⟩
  · obtain ⟨p, hr⟩ := Option.ne_none_iff_exists'.mp hrun
    exact step_busy hr hs
  · have hkind : s.beginOp.inp.asBlock = .otherKind := asBlock_otherKind h
    exact ⟨exec_of_otherKind (exec_pack_idle hr) hkind, exec_of_otherKind (exec_unpack_idle hr) hkind,
      exec_of_otherKind (exec_build_idle hr) hkind, exec_of_otherKind (exec_bankPar_idle hr) hkind,
      fun h1 h4 => exec_of_otherKind ((exec_swap_idle hr).trans (swapBody_ok (swapCheck_ok h1 h4) _)) hkind⟩
  · exact exec_of_otherKind (exec_parse_idle hr) (asEnvelopes_otherKind h)
  · exact exec_of_otherKind (exec_bankSer_idle hr) (asBank_otherKind h)
  · rw [exec_eq_envCommand hi, State.envCommand_outside hr]

end Sys2Proof.Machine
end

section
/-! Reset (O7; 70_reset_and_hazards.md rule R270, 10_state.md rule R42). -/

namespace Sys2Proof.Machine

/-- Reset keeps nothing of the state it is applied to, nor of an operation running in it (R270). -/
@[simp] theorem State.assertReset_eq (s : State) : s.assertReset = State.reset := rfl

/-- Reset clears the result registers, as the start of an operation does (R42, R272). -/
@[simp] theorem State.reset_res : State.reset.res = ResultRegs.cleared := rfl

/-- The `CFG_*` registers are the model's parameters, which no state holds: any two states show the same (R32). -/
theorem sameConfig_any (s t : State) : SameConfig s t := ⟨rfl, rfl, rfl⟩

/-- Settles O7: reset forgets the state before it, its fields are the values of R42, and the `CFG_*` registers are the
same in every state. -/
theorem resetLeavesTheClearedBlock : Obligations.ResetLeavesTheClearedBlock := fun s =>
  ⟨s.assertReset_eq, State.reset_res, rfl, rfl, rfl, rfl, rfl, rfl, rfl, sameConfig_any s State.reset⟩

end Sys2Proof.Machine
end
